-- ==== Sys2Proof/Word.lean ====
section
/-! DEFINITION. The byte type of the wire (00_scope.md R9). -/

namespace Sys2Proof

/-- A raw or logical byte, 8 bits (R9, R66). -/
abbrev Byte := BitVec 8

end Sys2Proof
end

