-- ==== Sys2Proof/Config.lean ====
section
/-! DEFINITION. What an integrator of the block fixes (00_scope.md R10, 93_implementation_defined.md U6). -/

namespace Sys2Proof

/-- The parameters of a build of the block. `OFFSET_W` is the only one: "A model takes `OFFSET_W` as an argument with
`OFFSET_W >= 1`" (R10, D9). The state carries it (log entry 2), no step changes it, and every definition and statement holds for
each of its values. -/
structure Config where
  /-- `OFFSET_W`, the width in bits of the raw-byte offset counter, at least 1 (R10). -/
  offsetW : ℕ+
deriving DecidableEq, Repr

/-- The default width of R10, 32. -/
def Config.default : Config where
  offsetW := 32

/-- `2^OFFSET_W`, the modulus of a raw-byte offset (R33, R133, R207). -/
def Config.offsets (c : Config) : Nat :=
  2 ^ (c.offsetW : Nat)

end Sys2Proof
end

