-- ==== Sys2Proof/Syntax.lean ====
section
/-! DEFINITION. The operations of a step, one constructor per row of spec/opcode_table.json (30_encoding.md R93), and the things
a row is selected by: the phase, the escape state and the input ports. -/

namespace Sys2Proof

/-- The state of the frame-boundary state machine, the eight codes of R30 in order. -/
inductive Phase where
  | idle
  | marker
  | ts
  | level
  | payload
  | ident
  | done
  | error
deriving DecidableEq, Repr

/-- The state of the escape decoder (R31). -/
inductive Esc where
  | normal
  | afterEscape
deriving DecidableEq, Repr

/-- The input ports as sampled at one step (R23 to R27). -/
structure Ports where
  rst : Bool
  inValid : Bool
  inData : Byte
  inEos : Bool
  outReady : Bool
deriving DecidableEq, Repr

/-- Inputs all zero: no reset, no byte offered, no end of stream, consumer not ready. -/
def Ports.idle : Ports :=
  { rst := false, inValid := false, inData := 0, inEos := false, outReady := false }

/-- The registers that select the row a word is read by (the `context` of a table row, R93). -/
structure Context where
  phase : Phase
  esc : Esc
  outValid : Bool
deriving DecidableEq, Repr

/-- The formats of the table (R93): four kinds of byte row, the logical-byte rows, the event rows. -/
inductive RowFormat where
  | boundary
  | marker
  | fieldNormal
  | fieldEsc
  | logicalByte
  | event
deriving DecidableEq, Repr

/-- A word of the table: eight bits read in one format. An event word has its four control bits in bits 3..0 and
zeros above (R93). -/
structure RowWord where
  format : RowFormat
  bits : Byte
deriving DecidableEq, Repr

/-- The operations of a step, one per row of spec/opcode_table.json, in the table's order. -/
inductive Instr where
  | lead
  | leadBad (b : Byte)
  | markAc
  | markSs
  | markSl
  | markId
  | markBad (b : Byte)
  | fieldLiteral (b : Byte)
  | fieldEscOpen
  | fieldEscClose
  | fieldEscBad (b : Byte)
  | tsByte (v : Byte)
  | levelByte (v : Byte)
  | payloadByte (v : Byte)
  | identByte (v : Byte)
  | endClean
  | endTrunc
  | take
  | wait
  | reset
deriving DecidableEq, Repr

end Sys2Proof
end

