-- ==== Sys2Proof/Decode.lean ====
section
/-! DEFINITION. From input ports to the row of the table a step performs, and back (30_encoding.md R80 to R93,
40_escape_decoder.md R100, 43_classifier_output.md R171). A word has a meaning only in the context of the registers, so the
decoder takes the context. It is total: a word no row reads in the context is rejected by name. -/

namespace Sys2Proof

/-! ### The literals of the wire format (R2, R9, R83; D29) -/

/-- `ESC`, the lead byte and escape marker `0x1A` (R9). -/
def escByte : Byte := 0x1A
/-- The Mode-AC marker (R83). -/
def markerAc : Byte := 0x31
/-- The Mode-S short marker (R83). -/
def markerSs : Byte := 0x32
/-- The Mode-S long marker (R83). -/
def markerSl : Byte := 0x33
/-- The receiver-identity marker (R83). -/
def markerId : Byte := 0xE3

/-! ### The two classifiers of a raw byte -/

/-- What `EscDecode` answers (R100): a logical byte, nothing yet, or an invalid escape. -/
inductive EscResult where
  | emit (esc : Esc) (v : Byte)
  | hold (esc : Esc)
  | bad
deriving DecidableEq, Repr

/-- `EscDecode` (R100), its four cases being R101 to R104. -/
def escDecode (esc : Esc) (b : Byte) : EscResult :=
  match esc with
  | .normal => if b = escByte then .hold .afterEscape else .emit .normal b
  | .afterEscape => if b = escByte then .emit .normal escByte else .bad

/-- The byte rows a byte taken in `IDLE` can be (R124, R125). -/
def decodeBoundary (b : Byte) : Instr :=
  if b = escByte then .lead else .leadBad b

/-- The byte rows a byte taken in `MARKER` can be: the classifier's decision (R171) over all 256 values. -/
def decodeMarker (b : Byte) : Instr :=
  if b = markerAc then .markAc
  else if b = markerSs then .markSs
  else if b = markerSl then .markSl
  else if b = markerId then .markId
  else .markBad b

/-- The byte rows a byte taken in a field phase can be (R88), by the escape decoder's answer. -/
def decodeField (esc : Esc) (b : Byte) : Instr :=
  match escDecode esc b, esc with
  | .hold _, _ => .fieldEscOpen
  | .bad, _ => .fieldEscBad b
  | .emit _ v, .normal => .fieldLiteral v
  | .emit _ _, .afterEscape => .fieldEscClose

/-- The logical-byte row a delivered byte is, by the phase (R93, R123); none outside the four field phases. -/
def decodeLogical (phase : Phase) (v : Byte) : Option Instr :=
  match phase with
  | .ts => some (.tsByte v)
  | .level => some (.levelByte v)
  | .payload => some (.payloadByte v)
  | .ident => some (.identByte v)
  | .idle | .marker | .done | .error => none

/-! ### The decoder -/

/-- The format an accepted byte is read in (R93); none in the terminal phases, where no byte is taken (R134). -/
def byteFormat (phase : Phase) (esc : Esc) : Option RowFormat :=
  match phase with
  | .idle => some .boundary
  | .marker => some .marker
  | .ts | .level | .payload | .ident =>
    match esc with
    | .normal => some .fieldNormal
    | .afterEscape => some .fieldEsc
  | .done | .error => none

/-- The byte row of an accepted byte, by the format it is read in. The formats that are no byte format read none. -/
def decodeByte (format : RowFormat) (b : Byte) : Option Instr :=
  match format with
  | .boundary => some (decodeBoundary b)
  | .marker => some (decodeMarker b)
  | .fieldNormal => some (decodeField .normal b)
  | .fieldEsc => some (decodeField .afterEscape b)
  | .logicalByte | .event => none

/-- Why the decoder reads no row from a word in a context. None of them answers a word that the ports give
(`portWord`): a step never meets one. -/
inductive Reject where
  /-- A byte word while `in_ready` is 0 or in a phase and escape state that read another format (R45, R93). -/
  | formatNotRead
  /-- A logical-byte word outside the field phases (R93). -/
  | noFieldOpen
  /-- An event word with a bit set above its four bits (R93). -/
  | eventBitsHigh
  /-- An event word of a step in which a byte is accepted: a byte row performs that step (R93). -/
  | byteAccepted
deriving DecidableEq, Repr

/-- The decoder's answer. -/
inductive Decoded where
  | row (i : Instr)
  | rejected (why : Reject)
deriving DecidableEq, Repr

/-- The two phases that only a reset leaves (R134). -/
def Phase.terminal : Phase → Bool
  | .done | .error => true
  | .idle | .marker | .ts | .level | .payload | .ident => false

/-- The event row of a step without `Accept` (R93): `ev` is `rst ++ in_valid ++ in_eos ++ out_ready`. -/
def decodeEvent (c : Context) (ev : BitVec 4) : Decoded :=
  if ev.getLsbD 3 then .row .reset
  else if c.outValid then
    if ev.getLsbD 0 then .row .take else .row .wait
  else if c.phase.terminal then .row .wait
  else if ev.getLsbD 2 then .rejected .byteAccepted
  else if ev.getLsbD 1 then
    if c.phase = .idle then .row .endClean else .row .endTrunc
  else .row .wait

/-- The decoder: the row a word is, in a context. -/
def decodeWord (c : Context) (w : RowWord) : Decoded :=
  match w.format with
  | .event =>
    if w.bits.toNat < 16 then decodeEvent c (w.bits.setWidth 4) else .rejected .eventBitsHigh
  | .logicalByte =>
    match decodeLogical c.phase w.bits with
    | some i => .row i
    | none => .rejected .noFieldOpen
  | .boundary | .marker | .fieldNormal | .fieldEsc =>
    if c.outValid || byteFormat c.phase c.esc != some w.format then .rejected .formatNotRead
    else
      match decodeByte w.format w.bits with
      | some i => .row i
      | none => .rejected .formatNotRead

/-- The control vector `ev = rst ++ in_valid ++ in_eos ++ out_ready`, bit 3 to bit 0 (R93). -/
def Ports.ev (p : Ports) : BitVec 4 :=
  BitVec.ofBool p.rst ++ BitVec.ofBool p.inValid ++ BitVec.ofBool p.inEos ++ BitVec.ofBool p.outReady

/-- The word the input ports offer in a step: the raw byte where it is accepted (R40: no reset, `in_valid`, and `in_ready`,
which needs `out_valid_r = 0` and a parsing phase), the control vector otherwise. -/
def portWord (c : Context) (p : Ports) : RowWord :=
  match if p.rst || !p.inValid || c.outValid then none else byteFormat c.phase c.esc with
  | some f => { format := f, bits := p.inData }
  | none => { format := .event, bits := p.ev.setWidth 8 }

/-- The row a step performs, from the registers that select it and the input ports. -/
def decode (c : Context) (p : Ports) : Decoded :=
  decodeWord c (portWord c p)

/-! ### The encoder -/

/-- The word of a row, from the table's match and mask; the bits an event row leaves free are 0. -/
def encode : Instr → RowWord
  | .lead => { format := .boundary, bits := 0x1A }
  | .leadBad b => { format := .boundary, bits := b }
  | .markAc => { format := .marker, bits := 0x31 }
  | .markSs => { format := .marker, bits := 0x32 }
  | .markSl => { format := .marker, bits := 0x33 }
  | .markId => { format := .marker, bits := 0xE3 }
  | .markBad b => { format := .marker, bits := b }
  | .fieldLiteral b => { format := .fieldNormal, bits := b }
  | .fieldEscOpen => { format := .fieldNormal, bits := 0x1A }
  | .fieldEscClose => { format := .fieldEsc, bits := 0x1A }
  | .fieldEscBad b => { format := .fieldEsc, bits := b }
  | .tsByte v => { format := .logicalByte, bits := v }
  | .levelByte v => { format := .logicalByte, bits := v }
  | .payloadByte v => { format := .logicalByte, bits := v }
  | .identByte v => { format := .logicalByte, bits := v }
  | .endClean => { format := .event, bits := 0x2 }
  | .endTrunc => { format := .event, bits := 0x2 }
  | .take => { format := .event, bits := 0x1 }
  | .wait => { format := .event, bits := 0x0 }
  | .reset => { format := .event, bits := 0x8 }

/-! ### The table itself -/

/-- One row of spec/opcode_table.json: a word matches where `bits & mask = fixed` and it is not excluded. -/
structure Row where
  mnemonic : String
  format : RowFormat
  fixed : Byte
  mask : Byte
  exclude : List Byte
deriving DecidableEq, Repr

/-- The row of an operation, as spec/opcode_table.json lists it. An event row's mask has, beside the table's own bits, the
four bits above the control vector, which has four bits only (R93). -/
def rowOf : Instr → Row
  | .lead => ⟨"LEAD", .boundary, 0x1A, 0xFF, []⟩
  | .leadBad _ => ⟨"LEAD_BAD", .boundary, 0, 0, [0x1A]⟩
  | .markAc => ⟨"MARK_AC", .marker, 0x31, 0xFF, []⟩
  | .markSs => ⟨"MARK_SS", .marker, 0x32, 0xFF, []⟩
  | .markSl => ⟨"MARK_SL", .marker, 0x33, 0xFF, []⟩
  | .markId => ⟨"MARK_ID", .marker, 0xE3, 0xFF, []⟩
  | .markBad _ => ⟨"MARK_BAD", .marker, 0, 0, [0x31, 0x32, 0x33, 0xE3]⟩
  | .fieldLiteral _ => ⟨"FIELD_LITERAL", .fieldNormal, 0, 0, [0x1A]⟩
  | .fieldEscOpen => ⟨"FIELD_ESC_OPEN", .fieldNormal, 0x1A, 0xFF, []⟩
  | .fieldEscClose => ⟨"FIELD_ESC_CLOSE", .fieldEsc, 0x1A, 0xFF, []⟩
  | .fieldEscBad _ => ⟨"FIELD_ESC_BAD", .fieldEsc, 0, 0, [0x1A]⟩
  | .tsByte _ => ⟨"TS_BYTE", .logicalByte, 0, 0, []⟩
  | .levelByte _ => ⟨"LEVEL_BYTE", .logicalByte, 0, 0, []⟩
  | .payloadByte _ => ⟨"PAYLOAD_BYTE", .logicalByte, 0, 0, []⟩
  | .identByte _ => ⟨"IDENT_BYTE", .logicalByte, 0, 0, []⟩
  | .endClean => ⟨"END_CLEAN", .event, 0x2, 0xFE, []⟩
  | .endTrunc => ⟨"END_TRUNC", .event, 0x2, 0xFE, []⟩
  | .take => ⟨"TAKE", .event, 0x1, 0xF9, []⟩
  | .wait => ⟨"WAIT", .event, 0x0, 0xF8, []⟩
  | .reset => ⟨"RESET", .event, 0x8, 0xF8, []⟩

/-- A word is one of a row's words: same format, the fixed bits, and not excluded. -/
def Row.selects (r : Row) (w : RowWord) : Bool :=
  w.format == r.format && (w.bits &&& r.mask) == r.fixed && !r.exclude.contains w.bits

/-- The byte rows of the table, in its order (the operand of a row that has one stands for any). -/
def byteRows : List Row :=
  [.lead, .leadBad 0, .markAc, .markSs, .markSl, .markId, .markBad 0, .fieldLiteral 0, .fieldEscOpen, .fieldEscClose,
    .fieldEscBad 0].map rowOf

/-- The register context under which a row applies (the table's `context`), less the count of a logical-byte row, which no
word depends on. `Accept` and `End` need `in_ready`, so `out_valid_r = 0` (R45). -/
def Instr.appliesIn (i : Instr) (c : Context) : Bool :=
  match i with
  | .lead | .leadBad _ => !c.outValid && c.phase == .idle
  | .markAc | .markSs | .markSl | .markId | .markBad _ => !c.outValid && c.phase == .marker
  | .fieldLiteral _ | .fieldEscOpen =>
    !c.outValid && byteFormat c.phase c.esc == some .fieldNormal
  | .fieldEscClose | .fieldEscBad _ => !c.outValid && byteFormat c.phase c.esc == some .fieldEsc
  | .tsByte _ => c.phase == .ts
  | .levelByte _ => c.phase == .level
  | .payloadByte _ => c.phase == .payload
  | .identByte _ => c.phase == .ident
  | .endClean => !c.outValid && c.phase == .idle
  | .endTrunc => !c.outValid && c.phase != .idle && !c.phase.terminal
  | .take => c.outValid
  | .wait | .reset => true

/-! ### One bare word of the table

A bare word does not say in which context it stands (`0x1A` is LEAD, FIELD_ESC_OPEN or FIELD_ESC_CLOSE; `0x2` is END_CLEAN or
END_TRUNC). DESIGN CHOICE (log entry 6): it is read in the context of the first row of the table whose fixed bits it has, a
word below 16 as a control vector, and in the context after reset where it has none. -/

/-- A bare word below 16 is a control vector. -/
def bareEvent (b : Byte) : Bool := b.toNat < 16

/-- The context a bare word is read in. A control vector that is neither a reset nor `End` and is not all zero is read while a
frame waits for the consumer. -/
def bareContext (b : Byte) : Context :=
  { phase := if b == markerAc || b == markerSs || b == markerSl || b == markerId then .marker else .idle
    esc := .normal
    outValid := b.toNat < 8 && b != 0 && (b &&& 0xE) != 0x2 }

/-- The ports that offer a bare word. -/
def barePorts (b : Byte) : Ports :=
  if bareEvent b then
    { rst := b.getLsbD 3, inValid := b.getLsbD 2, inData := 0, inEos := b.getLsbD 1, outReady := b.getLsbD 0 }
  else { Ports.idle with inValid := true, inData := b }

/-- The operation the decoder reads from a bare word of the table, in `bareContext`. -/
def decodeTableWord (nbits w : Nat) : Option Instr :=
  if nbits ≤ 8 ∧ w < 256 then
    match decode (bareContext (BitVec.ofNat 8 w)) (barePorts (BitVec.ofNat 8 w)) with
    | .row i => some i
    | .rejected _ => none
  else none

end Sys2Proof
end

