-- ==== Sys2Proof/WellFormed.lean ====
section
/-! DEFINITION. The operand values a row of the table admits: its `exclude` list (30_encoding.md R93). -/

namespace Sys2Proof

/-- The operand of the row is one the row's pattern selects. A row without operand is always well-formed. -/
def Instr.wellFormed : Instr → Bool
  | .leadBad b | .fieldLiteral b | .fieldEscBad b => b != escByte
  | .markBad b => b != markerAc && b != markerSs && b != markerSl && b != markerId
  | .tsByte _ | .levelByte _ | .payloadByte _ | .identByte _ => true
  | .lead | .markAc | .markSs | .markSl | .markId | .fieldEscOpen | .fieldEscClose => true
  | .endClean | .endTrunc | .take | .wait | .reset => true

end Sys2Proof
end

