-- ==== Sys2Proof/Machine/State.lean ====
section
/-! DEFINITION. The registers of the block (10_state.md R21, R30 to R39), their reset values (R50), and the reasons a step can
stop. -/

namespace Sys2Proof.Machine

/-- The frame kind register's four codes (R34): `unset` is code `00`, never written by a marker. -/
inductive Kind where
  | unset
  | modeAC
  | modeSShort
  | modeSLong
deriving DecidableEq, Repr

/-- The error kinds (R200), codes 0 to 4. Codes 5 to 7 are never written: a register holding one is no state of the block
(U12), so the type has no name for it. -/
inductive ErrCode where
  | none
  | unexpectedLeadByte
  | unknownFrameType
  | invalidEscapeSequence
  | truncatedFrame
deriving DecidableEq, Repr

/-- The reasons the machine could stop with a fault: none. "The block never faults on any input" (R235), and an error of the
stream is a next state, in phase `ERROR` (R206). Safe: there is nothing to raise. -/
inductive Fault where
deriving DecidableEq, Repr

/-- The reasons a step, or the execution of a row, has no meaning. -/
inductive Refusal where
  /-- Raised by `exec` alone, for a row that has no meaning yet. No row is left so. Safe: the machine stops. -/
  | notModelled (mnemonic : String)
  /-- Raised by the meaning of a row executed in a state where the table's `context` of the row does not hold (R93). A step
  never raises it: the decoder answers only rows whose context holds. Safe: the spec gives no effect there. -/
  | rowOutOfContext
  /-- Raised by `step` (but for a reset step), and by the meanings that deliver a logical byte, in a state that holds an unused
  encoding: `cnt` 14 or 15, or `kind_r = 00` while `out_valid_r = 1`. U12 of the spec refuses such a state: it is no state of
  the block. No run from reset reaches one (R49). Safe: the machine stops. -/
  | unusedEncoding
  /-- Raised by `step` if the decoder rejected the word of the input ports. It never does. Safe: the machine stops. -/
  | undecoded (why : Reject)
deriving DecidableEq, Repr

/-- The state: the twelve registers of R21, and two fields of the model's own: the parameters of the build and the samples of the
input ports still to come. -/
structure State where
  /-- The model's own field, no register of the block: the parameters the block was built with (R10, log entry 2). -/
  config : Config
  /-- `phase` (R30). -/
  phase : Phase
  /-- `esc` (R31). -/
  esc : Esc
  /-- `cnt[3:0]`, the logical bytes already taken into the current field (R32). -/
  cnt : BitVec 4
  /-- `off_r[OFFSET_W-1:0]`, the raw bytes taken since reset modulo `2^OFFSET_W` (R33): a number below `config.offsets`, which
  every step keeps (`State.offsetsFit`). -/
  offR : Nat
  /-- `kind_r` (R34). -/
  kindR : Kind
  /-- `ts_r[47:0]` (R35). -/
  tsR : BitVec 48
  /-- `level_r[7:0]` (R36). -/
  levelR : Byte
  /-- `pay_r[0..13]` (R37). -/
  payR : Vector Byte 14
  /-- `out_valid_r` (R38). -/
  outValidR : Bool
  /-- `err_code_r` (R39). -/
  errCodeR : ErrCode
  /-- `err_phase_r` (R39). -/
  errPhaseR : Phase
  /-- `err_offset_r[OFFSET_W-1:0]` (R39), a number below `config.offsets` like `off_r`. -/
  errOffsetR : Nat
  /-- The model's own field, no register of the block: what the host drives on the input ports in the steps to come, the next
  step first (log entry 1). -/
  pins : List Ports
deriving DecidableEq, Repr

/-- `ResetState` of a build of the block, the state right after a reset step (R50, R231), with no input placed (log entries 1
and 5). -/
def State.resetWith (c : Config) : State where
  config := c
  phase := .idle
  esc := .normal
  cnt := 0
  offR := 0
  kindR := .unset
  tsR := 0
  levelR := 0
  payR := Vector.replicate 14 0
  outValidR := false
  errCodeR := .none
  errPhaseR := .idle
  errOffsetR := 0
  pins := []

/-- `ResetState` of the build with the default width of R10 (log entry 2). -/
def State.reset : State :=
  State.resetWith Config.default

end Sys2Proof.Machine
end

