-- ==== Sys2Proof/Machine/Operands.lean ====
section
/-! DEFINITION. The codes of the named registers (10_state.md R30, R31, R34; 60_exceptions.md R200), the payload and field
lengths (R48, R122), and the classifier's table (43_classifier_output.md R171). -/

namespace Sys2Proof.Machine

/-- The `phase` code (R30). -/
def phaseCode : Phase → BitVec 3
  | .idle => 0
  | .marker => 1
  | .ts => 2
  | .level => 3
  | .payload => 4
  | .ident => 5
  | .done => 6
  | .error => 7

/-- The `esc` code (R31). -/
def escCode : Esc → BitVec 1
  | .normal => 0
  | .afterEscape => 1

/-- The `kind_r` code (R34). -/
def kindCode : Kind → BitVec 2
  | .unset => 0b00
  | .modeAC => 0b01
  | .modeSShort => 0b10
  | .modeSLong => 0b11

/-- The kind of a `kind_r` code (R34). -/
def kindOfCode (c : BitVec 2) : Kind :=
  if c = 0b01 then .modeAC else if c = 0b10 then .modeSShort else if c = 0b11 then .modeSLong else .unset

/-- The `err_code` of an error kind (R200). -/
def errCodeBits : ErrCode → BitVec 3
  | .none => 0
  | .unexpectedLeadByte => 1
  | .unknownFrameType => 2
  | .invalidEscapeSequence => 3
  | .truncatedFrame => 4

/-- `N(k)`, the payload length of a kind code (R48). -/
def payloadLen : Kind → Nat
  | .unset => 0
  | .modeAC => 2
  | .modeSShort => 7
  | .modeSLong => 14

/-- A field phase (R30). -/
def isFieldPhase : Phase → Bool
  | .ts | .level | .payload | .ident => true
  | .idle | .marker | .done | .error => false

/-- A parsing phase, codes 0 to 5 (R30). -/
def isParsingPhase : Phase → Bool
  | .idle | .marker | .ts | .level | .payload | .ident => true
  | .done | .error => false

/-- `FieldLen(phase, kind_r)`, the logical length of the field a field phase reads (R122); 0 where no field is read. -/
def fieldLen (phase : Phase) (kind : Kind) : Nat :=
  match phase with
  | .ts => 6
  | .level => 1
  | .payload => payloadLen kind
  | .ident => 8
  | .idle | .marker | .done | .error => 0

/-- `Next`, the phase after a completed field (R123, R129). The other phases complete no field. -/
def nextPhase : Phase → Phase
  | .ts => .level
  | .level => .payload
  | .payload => .idle
  | .ident => .idle
  | .idle => .idle
  | .marker => .marker
  | .done => .done
  | .error => .error

/-- What the classifier decides of a marker byte (R171). -/
inductive MarkerDecision where
  | data (kind : Kind)
  | identity
  | unknown
deriving DecidableEq, Repr

/-- The classifier's decision, a function of the marker byte alone (R171, R83). -/
def classifyMarker (b : Byte) : MarkerDecision :=
  if b == markerAc || b == markerSs || b == markerSl then .data (kindOfCode (b.setWidth 2))
  else if b = markerId then .identity
  else .unknown

end Sys2Proof.Machine
end

