-- ==== Sys2Proof/Machine/Flags.lean ====
section
/-! DEFINITION. The output ports, each a function of the registers alone (10_state.md R28, R29, R45, R46). -/

namespace Sys2Proof.Machine

/-- `in_ready` (R45). -/
def State.inReady (s : State) : Bool :=
  isParsingPhase s.phase && !s.outValidR

/-- `done` (R29). -/
def State.done (s : State) : Bool :=
  s.phase == .done

/-- `err_valid` (R29). -/
def State.errValid (s : State) : Bool :=
  s.phase == .error

/-- `out_len = N(kind_r)` as a 4-bit value (R28, R48). -/
def State.outLen (s : State) : BitVec 4 :=
  BitVec.ofNat 4 (payloadLen s.kindR)

/-- `out_payload = pay_r[0] ++ pay_r[1] ++ ... ++ pay_r[13]` (R28). -/
def State.outPayload (s : State) : BitVec 112 :=
  s.payR[0] ++ s.payR[1] ++ s.payR[2] ++ s.payR[3] ++ s.payR[4] ++ s.payR[5] ++ s.payR[6] ++ s.payR[7] ++ s.payR[8] ++
    s.payR[9] ++ s.payR[10] ++ s.payR[11] ++ s.payR[12] ++ s.payR[13]

/-- The output ports (table of 10_state.md section 2). `errOffset` is the number on the `OFFSET_W` bits of `err_offset`. -/
structure Outputs where
  inReady : Bool
  outValid : Bool
  outKind : BitVec 2
  outLen : BitVec 4
  outTs : BitVec 48
  outLevel : Byte
  outPayload : BitVec 112
  done : Bool
  errValid : Bool
  errCode : BitVec 3
  errPhase : BitVec 3
  errOffset : Nat
  phaseO : BitVec 3
deriving DecidableEq, Repr

/-- What the ports show (R28, R29, R45). While `out_valid` is 0 the `out_*` ports show the working registers, which is part of
no contract with the consumer (R28). -/
def State.outputs (s : State) : Outputs where
  inReady := s.inReady
  outValid := s.outValidR
  outKind := kindCode s.kindR
  outLen := s.outLen
  outTs := s.tsR
  outLevel := s.levelR
  outPayload := s.outPayload
  done := s.done
  errValid := s.errValid
  errCode := errCodeBits s.errCodeR
  errPhase := phaseCode s.errPhaseR
  errOffset := s.errOffsetR
  phaseO := phaseCode s.phase

end Sys2Proof.Machine
end

