-- ==== Sys2Proof/Machine/Ops.lean ====
section
/-! DEFINITION. The operations the meanings share: reading the ports, taking a byte, error entry, reset, the classifier's
writes, and the delivery of a logical byte (41_frame_fsm.md R121, R123; 43_classifier_output.md R170; 60_exceptions.md R206;
70_reset_and_hazards.md R230). -/

namespace Sys2Proof.Machine

/-! ### The ports of a step -/

/-- The input ports of the coming step. With no sample left the host drives zeros (log entry 1). -/
def State.sample (s : State) : Ports :=
  s.pins.headD Ports.idle

/-- The sample of this step is used up. -/
def State.advance (s : State) : State :=
  { s with pins := s.pins.tail }

/-- The registers that select the row (R93). -/
def State.context (s : State) : Context :=
  { phase := s.phase, esc := s.esc, outValid := s.outValidR }

/-- The row the step performs (R93). -/
def State.fetch (s : State) : Decoded :=
  decode s.context s.sample

/-- A value U12 calls unused: `cnt` 14 or 15, or `kind_r = 00` while `out_valid_r = 1`. -/
def State.holdsUnused (s : State) : Bool :=
  14 ≤ s.cnt.toNat || (s.outValidR && s.kindR == .unset)

/-- The block starts no step in a state that holds an unused encoding (U12), but for a reset step, which reads no register
(R230, R231). -/
def State.startsStep (s : State) : Bool :=
  s.sample.rst || !s.holdsUnused

/-! ### The contexts of the rows (R93) -/

/-- A byte or `End` can be taken (R45), in phase `p`. -/
def State.takesIn (s : State) (p : Phase) : Bool :=
  !s.outValidR && s.phase == p

/-- A byte can be taken into a field, with the escape decoder in state `e` (R88). -/
def State.takesField (s : State) (e : Esc) : Bool :=
  !s.outValidR && isFieldPhase s.phase && s.esc == e

/-- A logical-byte row of phase `p` applies: the phase is `p` and `cnt` is inside the field (the rows' contexts, R93). -/
def State.fieldOpen (s : State) (p : Phase) : Bool :=
  s.phase == p && s.cnt.toNat < fieldLen p s.kindR

/-- A row's effect, where its context holds. -/
def runRow (context : Bool) (after : State) : Host.Outcome State Fault Refusal :=
  if context then .next after else .refused .rowOutOfContext

/-! ### The writes -/

/-- A byte is taken: `off_r <- off_r + 1` modulo `2^OFFSET_W` (R133). -/
def State.takeByte (s : State) : State :=
  { s with offR := (s.offR + 1) % s.config.offsets }

/-- Error entry, `raise E` (R206): the code, the phase and the offset at the start of the step are recorded. -/
def State.raise (s : State) (e : ErrCode) : State :=
  { s with
    errCodeR := e
    errPhaseR := s.phase
    errOffsetR := s.offR
    phase := .error
    esc := .normal }

/-- An error that a taken byte caused: error entry, and the byte counts as taken (R133, R206). -/
def State.raiseOnByte (s : State) (e : ErrCode) : State :=
  (s.raise e).takeByte

/-- The only return from an error: the reset values of R50 in every register (R209, R230). The inputs to come are the host's
and stay, and so does the width the block was built with. -/
def State.loadReset (s : State) : State :=
  { State.resetWith s.config with pins := s.pins }

/-- `Classify(b)` (R170). -/
def State.classify (s : State) (b : Byte) : State :=
  { s with
    kindR := kindOfCode (b.setWidth 2)
    tsR := 0
    levelR := 0
    payR := Vector.replicate 14 0
    cnt := 0
    esc := .normal
    phase := .ts }

/-- The identity marker's writes (R127). -/
def State.openIdent (s : State) : State :=
  { s with phase := .ident, cnt := 0, esc := .normal }

/-- `ts_r <- ts_r[39:0] ++ v` (R151). -/
def State.shiftTs (s : State) (v : Byte) : State :=
  { s with tsR := s.tsR.setWidth 40 ++ v }

/-- `level_r <- v` (R155). -/
def State.writeLevel (s : State) (v : Byte) : State :=
  { s with levelR := v }

/-- `pay_r[cnt] <- v` (R157). -/
def State.writePayload (s : State) (v : Byte) : State :=
  { s with payR := s.payR.setIfInBounds s.cnt.toNat v }

/-- The counting half of `Deliver` (R123): the last byte of a field completes it (R129) and, in `PAYLOAD`, emits the frame
(R180); any other byte is counted. -/
def State.countByte (s : State) : State :=
  if s.cnt.toNat + 1 = fieldLen s.phase s.kindR then
    { s with cnt := 0, phase := nextPhase s.phase, outValidR := s.outValidR || s.phase == .payload }
  else { s with cnt := s.cnt + 1 }

/-- The storing half of `Deliver` (R123), by phase; an identity byte is discarded (R130). -/
def State.storeByte (s : State) (v : Byte) : State :=
  match s.phase with
  | .ts => s.shiftTs v
  | .level => s.writeLevel v
  | .payload => s.writePayload v
  | .ident | .idle | .marker | .done | .error => s

/-- `Deliver(v)` (R123). -/
def State.deliver (s : State) (v : Byte) : State :=
  (s.storeByte v).countByte

/-- A byte row that delivers a logical byte (R101, R103): the byte is taken, `esc <- 0`, and `v` goes to the current field.
With `cnt` 14 or 15 there is no such field byte (U12). -/
def deliverRow (context : Bool) (v : Byte) (s : State) : Host.Outcome State Fault Refusal :=
  if context && 14 ≤ s.cnt.toNat then .refused .unusedEncoding
  else runRow context (({ s with esc := .normal }).takeByte.deliver v)

/-! ### A bare word of the table -/

/-- `s` with a bare word of the table as its next input, in the context it is read in (log entry 6). A frame that waits for the
consumer has a kind (R49 (e)), so one is put there where the register has none. -/
def State.placeWord (s : State) (b : Byte) : State :=
  { s with
    phase := (bareContext b).phase
    esc := (bareContext b).esc
    outValidR := (bareContext b).outValid
    kindR := if (bareContext b).outValid && s.kindR == .unset then .modeAC else s.kindR
    pins := barePorts b :: s.pins.tail }

end Sys2Proof.Machine
end

