-- ==== Sys2Proof/Machine/Boundary.lean ====
section
/-! DEFINITION. The BOUNDARY rows: a byte taken in `IDLE` (41_frame_fsm.md R124, R125). -/

namespace Sys2Proof.Machine

/-- LEAD (R124). -/
def execLead (s : State) : Host.Outcome State Fault Refusal :=
  runRow (s.takesIn .idle) ({ s with phase := .marker }).takeByte

/-- LEAD_BAD (R125, R201). The rejected byte is recorded nowhere. -/
def execLeadBad (_b : Byte) (s : State) : Host.Outcome State Fault Refusal :=
  runRow (s.takesIn .idle) (s.raiseOnByte .unexpectedLeadByte)

end Sys2Proof.Machine
end

