-- ==== Sys2Proof/Machine/Capture.lean ====
section
/-! DEFINITION. The LOGICAL_BYTE rows: what the current field does with a delivered byte (42_timestamp_assembler.md R151, R155,
R157; 41_frame_fsm.md R130). The byte that carried it was taken by FIELD_LITERAL or FIELD_ESC_CLOSE, whose meanings do the same
through `State.deliver` and also advance `off_r` and clear `esc` (log entry 4). -/

namespace Sys2Proof.Machine

/-- TS_BYTE (R151). -/
def execTsByte (v : Byte) (s : State) : Host.Outcome State Fault Refusal :=
  runRow (s.fieldOpen .ts) (s.shiftTs v).countByte

/-- LEVEL_BYTE (R155). -/
def execLevelByte (v : Byte) (s : State) : Host.Outcome State Fault Refusal :=
  runRow (s.fieldOpen .level) (s.writeLevel v).countByte

/-- PAYLOAD_BYTE (R157); the last one emits the frame (R180). -/
def execPayloadByte (v : Byte) (s : State) : Host.Outcome State Fault Refusal :=
  runRow (s.fieldOpen .payload) (s.writePayload v).countByte

/-- IDENT_BYTE (R130): counted and discarded. -/
def execIdentByte (_v : Byte) (s : State) : Host.Outcome State Fault Refusal :=
  runRow (s.fieldOpen .ident) s.countByte

end Sys2Proof.Machine
end

