-- ==== Sys2Proof/Machine/Event.lean ====
section
/-! DEFINITION. The EVENT rows (41_frame_fsm.md R131, R132; 10_state.md R42, R44; 70_reset_and_hazards.md R230). -/

namespace Sys2Proof.Machine

/-- END_CLEAN (R131). -/
def execEndClean (s : State) : Host.Outcome State Fault Refusal :=
  runRow (s.takesIn .idle) { s with phase := .done }

/-- END_TRUNC (R132, R204): whatever `esc` holds; `off_r` does not advance (R133). -/
def execEndTrunc (s : State) : Host.Outcome State Fault Refusal :=
  runRow (s.inReady && s.phase != .idle) (s.raise .truncatedFrame)

/-- TAKE (R42): `out_valid_r <- 0` and nothing else. -/
def execTake (s : State) : Host.Outcome State Fault Refusal :=
  runRow s.outValidR { s with outValidR := false }

/-- WAIT (R44): no register changes. -/
def execWait (s : State) : Host.Outcome State Fault Refusal :=
  .next s

/-- RESET (R230). -/
def execReset (s : State) : Host.Outcome State Fault Refusal :=
  .next s.loadReset

end Sys2Proof.Machine
end

