-- ==== Sys2Proof/Machine/Field.lean ====
section
/-! DEFINITION. The FIELD_NORMAL and FIELD_ESC rows: a byte taken in a field phase (40_escape_decoder.md R101 to R104). -/

namespace Sys2Proof.Machine

/-- FIELD_LITERAL (R101): the raw byte is the logical byte. -/
def execFieldLiteral (b : Byte) (s : State) : Host.Outcome State Fault Refusal :=
  deliverRow (s.takesField .normal) b s

/-- FIELD_ESC_OPEN (R102). -/
def execFieldEscOpen (s : State) : Host.Outcome State Fault Refusal :=
  runRow (s.takesField .normal) ({ s with esc := .afterEscape }).takeByte

/-- FIELD_ESC_CLOSE (R103): the pair stands for one logical `0x1A`. -/
def execFieldEscClose (s : State) : Host.Outcome State Fault Refusal :=
  deliverRow (s.takesField .afterEscape) escByte s

/-- FIELD_ESC_BAD (R104, R203). The rejected byte is recorded nowhere. -/
def execFieldEscBad (_b : Byte) (s : State) : Host.Outcome State Fault Refusal :=
  runRow (s.takesField .afterEscape) (s.raiseOnByte .invalidEscapeSequence)

end Sys2Proof.Machine
end

