-- ==== Sys2Proof/Machine/Marker.lean ====
section
/-! DEFINITION. The MARKER rows: a byte taken in `MARKER` (41_frame_fsm.md R126 to R128; 43_classifier_output.md R170). -/

namespace Sys2Proof.Machine

/-- MARK_AC (R126, R170). -/
def execMarkAc (s : State) : Host.Outcome State Fault Refusal :=
  runRow (s.takesIn .marker) (s.classify markerAc).takeByte

/-- MARK_SS (R126, R170). -/
def execMarkSs (s : State) : Host.Outcome State Fault Refusal :=
  runRow (s.takesIn .marker) (s.classify markerSs).takeByte

/-- MARK_SL (R126, R170). -/
def execMarkSl (s : State) : Host.Outcome State Fault Refusal :=
  runRow (s.takesIn .marker) (s.classify markerSl).takeByte

/-- MARK_ID (R127). -/
def execMarkId (s : State) : Host.Outcome State Fault Refusal :=
  runRow (s.takesIn .marker) s.openIdent.takeByte

/-- MARK_BAD (R128, R202). The rejected byte is recorded nowhere. -/
def execMarkBad (_b : Byte) (s : State) : Host.Outcome State Fault Refusal :=
  runRow (s.takesIn .marker) (s.raiseOnByte .unknownFrameType)

end Sys2Proof.Machine
end

