-- ==== Sys2Proof/Machine/Dispatch.lean ====
section
/-! DEFINITION. One arm per row of the table. -/

namespace Sys2Proof.Machine

/-- The effect of one operation of the table in a state. -/
def exec (i : Instr) (s : State) : Host.Outcome State Fault Refusal :=
  match i with
  | .lead => Sys2Proof.Machine.execLead s
  | .leadBad b => Sys2Proof.Machine.execLeadBad b s
  | .markAc => Sys2Proof.Machine.execMarkAc s
  | .markSs => Sys2Proof.Machine.execMarkSs s
  | .markSl => Sys2Proof.Machine.execMarkSl s
  | .markId => Sys2Proof.Machine.execMarkId s
  | .markBad b => Sys2Proof.Machine.execMarkBad b s
  | .fieldLiteral b => Sys2Proof.Machine.execFieldLiteral b s
  | .fieldEscOpen => Sys2Proof.Machine.execFieldEscOpen s
  | .fieldEscClose => Sys2Proof.Machine.execFieldEscClose s
  | .fieldEscBad b => Sys2Proof.Machine.execFieldEscBad b s
  | .tsByte v => Sys2Proof.Machine.execTsByte v s
  | .levelByte v => Sys2Proof.Machine.execLevelByte v s
  | .payloadByte v => Sys2Proof.Machine.execPayloadByte v s
  | .identByte v => Sys2Proof.Machine.execIdentByte v s
  | .endClean => Sys2Proof.Machine.execEndClean s
  | .endTrunc => Sys2Proof.Machine.execEndTrunc s
  | .take => Sys2Proof.Machine.execTake s
  | .wait => Sys2Proof.Machine.execWait s
  | .reset => Sys2Proof.Machine.execReset s

end Sys2Proof.Machine
end

