-- ==== Sys2Proof/Machine/Step.lean ====
section
/-! DEFINITION. One step: one rising edge of `clk` (00_scope.md R13, 41_frame_fsm.md R121). -/

namespace Sys2Proof.Machine

/-- One step: the input ports are sampled, the row they select is performed. -/
def step (s : State) : Host.Outcome State Fault Refusal :=
  if s.startsStep then
    match s.fetch with
    | .row i => exec i s.advance
    | .rejected why => .refused (.undecoded why)
  else .refused .unusedEncoding

/-- `s` with a bare word of the table as its next input, in the context it is read in (log entry 6). A word that is not one byte
is no word of this hardware and changes nothing. -/
def State.withFetchWord (s : State) (nbits w : Nat) : State :=
  if nbits ≤ 8 ∧ w < 256 then s.placeWord (BitVec.ofNat 8 w) else s

end Sys2Proof.Machine
end

