-- ==== Sys2Proof/Machine/Framing.lean ====
section
/-! DEFINITION. The framing direction, a reference function and no datapath of the block (00_scope.md R8; 30_encoding.md R80 to
R92), and the frame a consumer reads off the output ports (43_classifier_output.md R180). -/

namespace Sys2Proof.Machine

/-- `FrameKind`, a closed set of three (R171). -/
inductive FrameKind where
  | modeAC
  | modeSShort
  | modeSLong
deriving DecidableEq, Repr

/-- The source's `DecodedFrame` (R28). -/
structure DecodedFrame where
  kind : FrameKind
  timestamp : BitVec 48
  signalLevel : Byte
  payload : List Byte
deriving DecidableEq, Repr

/-- The kind register's value for a frame kind (R34). -/
def kindOfFrame : FrameKind → Kind
  | .modeAC => .modeAC
  | .modeSShort => .modeSShort
  | .modeSLong => .modeSLong

/-- The frame kind a kind register names; none for code `00` (R34). -/
def frameKind? : Kind → Option FrameKind
  | .unset => none
  | .modeAC => some .modeAC
  | .modeSShort => some .modeSShort
  | .modeSLong => some .modeSLong

/-- "`length(payload) = N(kind)`" (R90, R183). -/
def DecodedFrame.wellFormed (f : DecodedFrame) : Bool :=
  f.payload.length == payloadLen (kindOfFrame f.kind)

/-- `Marker(kind)` (R90). -/
def frameMarker : FrameKind → Byte
  | .modeAC => 0x31
  | .modeSShort => 0x32
  | .modeSLong => 0x33

/-- `EscByte` (R86, R90). -/
def escapeByte (v : Byte) : List Byte :=
  if v = 0x1A then [0x1A, 0x1A] else [v]

/-- `EscField` (R86, R90). -/
def escapeField : List Byte → List Byte
  | [] => []
  | v :: vs => escapeByte v ++ escapeField vs

/-- The six timestamp bytes, most significant first (R64, R90). -/
def timestampBytes (ts : BitVec 48) : List Byte :=
  [ts.extractLsb' 40 8, ts.extractLsb' 32 8, ts.extractLsb' 24 8, ts.extractLsb' 16 8, ts.extractLsb' 8 8, ts.extractLsb' 0 8]

/-- `Encode(f)` (R90). -/
def encodeFrame (f : DecodedFrame) : List Byte :=
  [0x1A, frameMarker f.kind] ++ escapeField (timestampBytes f.timestamp) ++ escapeField [f.signalLevel] ++ escapeField f.payload

/-- `EncodeIdent(id)` (R90). -/
def encodeIdent (id : List Byte) : List Byte :=
  [0x1A, 0xE3] ++ escapeField id

/-- What a stream is made of: data frames and receiver-identity frames (R80, R81). -/
inductive StreamFrame where
  | data (f : DecodedFrame)
  | ident (body : List Byte)
deriving DecidableEq, Repr

/-- A data frame has its kind's payload length, an identity body 8 bytes (R80). -/
def StreamFrame.wellFormed : StreamFrame → Bool
  | .data f => f.wellFormed
  | .ident body => body.length == 8

/-- The wire image of a frame (R90). -/
def StreamFrame.bytes : StreamFrame → List Byte
  | .data f => encodeFrame f
  | .ident body => encodeIdent body

/-- The wire image of a stream: its frames placed back to back (R67, R81). -/
def streamBytes : List StreamFrame → List Byte
  | [] => []
  | x :: xs => x.bytes ++ streamBytes xs

/-- The data frames of a stream, in order: identity frames produce no output (R69). -/
def dataFrames : List StreamFrame → List DecodedFrame
  | [] => []
  | .data f :: xs => f :: dataFrames xs
  | .ident _ :: xs => dataFrames xs

/-- The frame pseudo-instructions of test programs (R92). -/
inductive Pseudo where
  | ac (ts : BitVec 48) (lvl : Byte) (p : List Byte)
  | ss (ts : BitVec 48) (lvl : Byte) (p : List Byte)
  | sl (ts : BitVec 48) (lvl : Byte) (p : List Byte)
  | ident (body : List Byte)
  | raw (bytes : List Byte)
  | eos
deriving DecidableEq, Repr

/-- One thing the source offers: a raw byte, or the end-of-stream indication, which is no byte (R25, R92). -/
inductive Offer where
  | byte (b : Byte)
  | endOfStream
deriving DecidableEq, Repr

/-- The expansion of a pseudo-instruction (R92). -/
def expandPseudo : Pseudo → List Offer
  | .ac ts lvl p => (encodeFrame ⟨.modeAC, ts, lvl, p⟩).map .byte
  | .ss ts lvl p => (encodeFrame ⟨.modeSShort, ts, lvl, p⟩).map .byte
  | .sl ts lvl p => (encodeFrame ⟨.modeSLong, ts, lvl, p⟩).map .byte
  | .ident body => (encodeIdent body).map .byte
  | .raw bytes => bytes.map .byte
  | .eos => [.endOfStream]

/-- The frame on the output ports, while one waits for the consumer (R28, R180): the first `out_len` payload bytes. -/
def State.frame? (s : State) : Option DecodedFrame :=
  if s.outValidR then
    (frameKind? s.kindR).map fun k => ⟨k, s.tsR, s.levelR, s.payR.toList.take (payloadLen s.kindR)⟩
  else none

end Sys2Proof.Machine
end

