-- ==== Sys2Proof/Machine/StepRule.lean ====
section
/-! DEFINITION. Rule R121 of 41_frame_fsm.md as one function, arm for arm as the spec writes it, without decoder, rows or
dispatch. It is what `step` is held against (R137: "exactly the arms of rule R121 and no others"); `step` does not use it. -/

namespace Sys2Proof.Machine

/-- The case `Accept(b)` of R121. All reads are of `s`; `off_r` advances in every arm (R133). -/
def acceptByte (s : State) (b : Byte) : State :=
  let next := (s.offR + 1) % s.config.offsets
  match s.phase with
  | .idle =>
    if b = 0x1A then { s with offR := next, phase := .marker }
    else { s.raise .unexpectedLeadByte with offR := next }
  | .marker =>
    if b = 0x31 ∨ b = 0x32 ∨ b = 0x33 then { s.classify b with offR := next }
    else if b = 0xE3 then { s with offR := next, phase := .ident, cnt := 0, esc := .normal }
    else { s.raise .unknownFrameType with offR := next }
  | .ts | .level | .payload | .ident =>
    match escDecode s.esc b with
    | .hold e => { s with offR := next, esc := e }
    | .emit e v => ({ s with offR := next, esc := e }).deliver v
    | .bad => { s.raise .invalidEscapeSequence with offR := next }
  | .done | .error => s

/-- `step(s, i)` of R121. -/
def stepRule (s : State) (i : Ports) : State :=
  if i.rst then s.loadReset
  else if s.outValidR then
    if i.outReady then { s with outValidR := false } else s
  else if s.phase = .done ∨ s.phase = .error then s
  else if i.inValid then acceptByte s i.inData
  else if i.inEos then
    if s.phase = .idle then { s with phase := .done } else s.raise .truncatedFrame
  else s

end Sys2Proof.Machine
end

