-- ==== Sys2Proof/Safety.lean ====
section
/-! DEFINITION. What the statements about runs say: the invariants of reachable states (10_state.md R49), what the consumer is
given, and the schedules of a source that always offers and a consumer that is always ready. -/

namespace Sys2Proof.Machine

/-! ### The invariants of R49 -/

/-- R49 (a): a waiting frame stands at a frame boundary. -/
abbrev State.emitsAtBoundary (s : State) : Prop :=
  s.outValidR = true → s.phase = .idle

/-- R49 (b): outside the fields no escape and no count is open. -/
abbrev State.restsBetweenFields (s : State) : Prop :=
  s.phase = .idle ∨ s.phase = .marker ∨ s.phase = .done → s.esc = .normal ∧ s.cnt = 0

/-- R49 (c): the count stays inside the field. -/
abbrev State.countsInsideField (s : State) : Prop :=
  isFieldPhase s.phase = true → s.cnt.toNat < fieldLen s.phase s.kindR

/-- R49 (d): a payload has a kind. -/
abbrev State.payloadHasKind (s : State) : Prop :=
  s.phase = .payload → s.kindR ≠ .unset

/-- R49 (e): a waiting frame has a kind. -/
abbrev State.frameHasKind (s : State) : Prop :=
  s.outValidR = true → s.kindR ≠ .unset

/-- R49 (f): in `ERROR` no escape is open and the code is one of the four kinds. -/
abbrev State.errorHasCode (s : State) : Prop :=
  s.phase = .error → s.esc = .normal ∧ s.errCodeR ≠ .none

/-- R49 (g): outside `ERROR` the error record is empty. -/
abbrev State.recordEmptyOutsideError (s : State) : Prop :=
  s.phase ≠ .error → s.errCodeR = .none ∧ s.errPhaseR = .idle ∧ s.errOffsetR = 0

/-- The seven invariants of R49. -/
abbrev State.reachableShape (s : State) : Prop :=
  s.emitsAtBoundary ∧ s.restsBetweenFields ∧ s.countsInsideField ∧ s.payloadHasKind ∧ s.frameHasKind ∧ s.errorHasCode ∧
    s.recordEmptyOutsideError

/-- What R49 needs beside itself to be kept by every step: a data frame's kind is there from its first field on (R170), and
`cnt` is never 14 or 15 in any phase (R32). -/
abbrev State.dataHasKind (s : State) : Prop :=
  (s.phase = .ts ∨ s.phase = .level → s.kindR ≠ .unset) ∧ s.cnt.toNat < 14

/-- The two offset registers hold `OFFSET_W` bits (R33, R39). -/
abbrev State.offsetsFit (s : State) : Prop :=
  s.offR < s.config.offsets ∧ s.errOffsetR < s.config.offsets

/-- The inductive invariant: R49, what it needs, and the width of the offset registers. -/
abbrev State.inv (s : State) : Prop :=
  s.reachableShape ∧ s.dataHasKind ∧ s.offsetsFit

/-- The payload bytes from number `n` on are 0. -/
abbrev State.zeroFrom (s : State) (n : Nat) : Prop :=
  ∀ j : Fin 14, n ≤ j.val → s.payR[j.val] = 0

/-- R158 made inductive: the part of the payload buffer that the frame has not filled (or, once it is emitted, does not use)
is 0. -/
abbrev State.unusedPayloadZero (s : State) : Prop :=
  (s.phase = .ts ∨ s.phase = .level → s.zeroFrom 0) ∧ (s.phase = .payload → s.zeroFrom s.cnt.toNat) ∧
    (s.outValidR = true → s.zeroFrom (payloadLen s.kindR))

/-- Two states of one build whose control registers agree: all registers but the captured timestamp, level and payload. -/
abbrev State.sameControl (s t : State) : Prop :=
  s.config = t.config ∧ s.phase = t.phase ∧ s.esc = t.esc ∧ s.cnt = t.cnt ∧ s.offR = t.offR ∧ s.kindR = t.kindR ∧ s.outValidR = t.outValidR ∧
    s.errCodeR = t.errCodeR ∧ s.errPhaseR = t.errPhaseR ∧ s.errOffsetR = t.errOffsetR

/-! ### The events of a step (R40 to R42) -/

/-- `Accept` happens in the coming step (R40). -/
def State.accepts (s : State) : Bool :=
  !s.sample.rst && s.inReady && s.sample.inValid

/-- `End` happens in the coming step (R41). -/
def State.ends (s : State) : Bool :=
  !s.sample.rst && s.inReady && !s.sample.inValid && s.sample.inEos

/-- `Take` happens in the coming step (R42). -/
def State.takes (s : State) : Bool :=
  !s.sample.rst && s.outValidR && s.sample.outReady

/-- What happens in a step besides waiting (R40 to R42, R230). -/
inductive Event where
  | accept (b : Byte)
  | finish
  | take
  | reset
deriving DecidableEq, Repr

/-- The event of the coming step; none where the block only waits (R44). -/
def State.event? (s : State) : Option Event :=
  if s.sample.rst then some .reset
  else if s.accepts then some (.accept s.sample.inData)
  else if s.ends then some .finish
  else if s.takes then some .take
  else none

/-- The events of the next `n` steps, in order. -/
def events : Nat → State → List Event
  | 0, _ => []
  | n + 1, s =>
    s.event?.toList ++
      match step s with
      | .next t => events n t
      | .fault _ => []
      | .refused _ => []

/-- The raw bytes taken in the next `n` steps, in order (R61). -/
def takenBytes : Nat → State → List Byte
  | 0, _ => []
  | n + 1, s =>
    (if s.accepts then [s.sample.inData] else []) ++
      match step s with
      | .next t => takenBytes n t
      | .fault _ => []
      | .refused _ => []

/-- Two states of one build agree in every register; the inputs to come may differ. -/
abbrev State.sameRegisters (s t : State) : Prop :=
  { s with pins := [] } = { t with pins := [] }

/-- The rows of a list performed one after the other. -/
def execAll : List Instr → State → Host.Outcome State Fault Refusal
  | [], s => .next s
  | i :: is, s =>
    match exec i s with
    | .next t => execAll is t
    | .fault r => .fault r
    | .refused r => .refused r

/-! ### What the consumer is given, and schedules -/

/-- The frames the consumer takes in the next `n` steps, in order: one in each step with `rst = 0`, `out_valid = 1` and
`out_ready = 1` (R235). -/
def delivered : Nat → State → List DecodedFrame
  | 0, _ => []
  | n + 1, s =>
    (if s.takes then s.frame?.toList else []) ++
      match step s with
      | .next t => delivered n t
      | .fault _ => []
      | .refused _ => []

/-- The samples `ps` offer the bytes `bs`, one a step, with no reset; `in_eos` and `out_ready` are anything. -/
abbrev offers (ps : List Ports) (bs : List Byte) : Prop :=
  ps.map Ports.inData = bs ∧ ∀ p ∈ ps, p.rst = false ∧ p.inValid = true

/-- A step in which the source offers `b` and the consumer is ready. -/
def offerByte (b : Byte) : Ports :=
  { Ports.idle with inValid := true, inData := b, outReady := true }

/-- A step in which only the consumer is ready. -/
def offerReady : Ports :=
  { Ports.idle with outReady := true }

/-- A step in which the source shows the end of the stream and the consumer is ready. -/
def offerEnd : Ports :=
  { Ports.idle with inEos := true, outReady := true }

/-- The steps of a stream for a source that always offers and a consumer that is always ready: a data frame's bytes and one
step for the hand-over, in which no byte is taken (R237 (c), R239); an identity frame's bytes. -/
def streamSteps : List StreamFrame → List Ports
  | [] => []
  | .data f :: xs => (encodeFrame f).map offerByte ++ offerReady :: streamSteps xs
  | .ident body :: xs => (encodeIdent body).map offerByte ++ streamSteps xs

end Sys2Proof.Machine
end

