-- ==== Sys2Proof/Certificates/Slice0/Obligations.lean ====
section
/-! DEFINITION. The statements for the provers. `pins` is the model's own field for the inputs to come (log entry 1): an exec
statement leaves it alone, a step uses up its first sample. `config` holds the width `OFFSET_W` of the build (log entry 2):
every statement is for all widths of R10. An equation `… = .next { s with … }` states the result and the
frame at once: every register not named keeps its value. The block has no memory (R60), so no frame speaks of one. -/

open Sys2Proof Sys2Proof.Machine

/-! ### One statement per row of the table: result, frame and completion -/

/-- R124: LEAD. -/
def Obligations.LeadByteOpensFrame : Prop :=
  ∀ s : State, s.phase = .idle → s.outValidR = false →
    exec .lead s = .next { s with phase := .marker, offR := (s.offR + 1) % s.config.offsets }

/-- R125 and R201: LEAD_BAD, for every byte. -/
def Obligations.BadLeadByteEntersError : Prop :=
  ∀ (s : State) (b : Byte), s.phase = .idle → s.outValidR = false →
    exec (.leadBad b) s =
      .next { s with
        phase := .error, esc := .normal, offR := (s.offR + 1) % s.config.offsets
        errCodeR := .unexpectedLeadByte, errPhaseR := .idle, errOffsetR := s.offR }

/-- R126 and R170: MARK_AC, MARK_SS and MARK_SL classify the frame and clear the working registers; `N` is 2, 7, 14. -/
def Obligations.DataMarkersClassifyAndClear : Prop :=
  ∀ (s : State) (i : Instr) (k : Kind) (n : Nat),
    (i, k, n) ∈ [(Instr.markAc, Kind.modeAC, 2), (Instr.markSs, Kind.modeSShort, 7), (Instr.markSl, Kind.modeSLong, 14)] →
    s.phase = .marker → s.outValidR = false →
      payloadLen k = n ∧ kindCode k = (encode i).bits.extractLsb' 0 2 ∧
      exec i s =
        .next { s with
          phase := .ts, esc := .normal, cnt := 0, offR := (s.offR + 1) % s.config.offsets, kindR := k
          tsR := 0, levelR := 0, payR := Vector.replicate 14 0 }

/-- R127: MARK_ID; `kind_r`, `ts_r`, `level_r` and `pay_r` keep their values. -/
def Obligations.IdentityMarkerOpensIdent : Prop :=
  ∀ s : State, s.phase = .marker → s.outValidR = false →
    exec .markId s = .next { s with phase := .ident, esc := .normal, cnt := 0, offR := (s.offR + 1) % s.config.offsets }

/-- R128 and R202: MARK_BAD, for every byte. -/
def Obligations.UnknownMarkerEntersError : Prop :=
  ∀ (s : State) (b : Byte), s.phase = .marker → s.outValidR = false →
    exec (.markBad b) s =
      .next { s with
        phase := .error, esc := .normal, offR := (s.offR + 1) % s.config.offsets
        errCodeR := .unknownFrameType, errPhaseR := .marker, errOffsetR := s.offR }

/-- R101: FIELD_LITERAL does what the logical-byte row of the phase does with the raw byte, after the byte is counted; and it
completes. -/
def Obligations.LiteralByteIsDelivered : Prop :=
  ∀ (s : State) (b : Byte), isFieldPhase s.phase = true → s.outValidR = false → s.esc = .normal →
    s.cnt.toNat < fieldLen s.phase s.kindR →
      ∃ (i : Instr) (t : State), decodeLogical s.phase b = some i ∧ exec (.fieldLiteral b) s = .next t ∧
        exec i { s with esc := .normal, offR := (s.offR + 1) % s.config.offsets } = .next t

/-- R102: FIELD_ESC_OPEN delivers nothing. -/
def Obligations.EscapeOpenHoldsTheByte : Prop :=
  ∀ s : State, isFieldPhase s.phase = true → s.outValidR = false → s.esc = .normal →
    exec .fieldEscOpen s = .next { s with esc := .afterEscape, offR := (s.offR + 1) % s.config.offsets }

/-- R103: FIELD_ESC_CLOSE does what the logical-byte row of the phase does with `0x1A`, leaves the escape state, and
completes. -/
def Obligations.EscapeCloseDeliversOne1A : Prop :=
  ∀ s : State, isFieldPhase s.phase = true → s.outValidR = false → s.esc = .afterEscape →
    s.cnt.toNat < fieldLen s.phase s.kindR →
      ∃ (i : Instr) (t : State), decodeLogical s.phase 0x1A = some i ∧ exec .fieldEscClose s = .next t ∧
        exec i { s with esc := .normal, offR := (s.offR + 1) % s.config.offsets } = .next t

/-- R104 and R203: FIELD_ESC_BAD in each of the four field phases. -/
def Obligations.LoneEscapeEntersError : Prop :=
  ∀ (s : State) (b : Byte), isFieldPhase s.phase = true → s.outValidR = false → s.esc = .afterEscape →
    exec (.fieldEscBad b) s =
      .next { s with
        phase := .error, esc := .normal, offR := (s.offR + 1) % s.config.offsets
        errCodeR := .invalidEscapeSequence, errPhaseR := s.phase, errOffsetR := s.offR }

/-- R151: TS_BYTE. -/
def Obligations.TimestampByteShiftsIn : Prop :=
  ∀ (s : State) (v : Byte), s.phase = .ts → s.cnt.toNat < 6 →
    exec (.tsByte v) s =
      .next (if s.cnt = 5 then { s with tsR := s.tsR.extractLsb' 0 40 ++ v, cnt := 0, phase := .level }
        else { s with tsR := s.tsR.extractLsb' 0 40 ++ v, cnt := s.cnt + 1 })

/-- R155: LEVEL_BYTE. -/
def Obligations.LevelByteIsCaptured : Prop :=
  ∀ (s : State) (v : Byte), s.phase = .level → s.cnt = 0 →
    exec (.levelByte v) s = .next { s with levelR := v, cnt := 0, phase := .payload }

/-- R157: PAYLOAD_BYTE writes one byte of the buffer; the last one emits the frame. -/
def Obligations.PayloadByteIsStored : Prop :=
  ∀ (s : State) (v : Byte), s.phase = .payload → s.cnt.toNat < payloadLen s.kindR →
    ∃ pay : Vector Byte 14,
      (∀ j : Fin 14, pay[j.val] = if j.val = s.cnt.toNat then v else s.payR[j.val]) ∧
      exec (.payloadByte v) s =
        .next (if s.cnt.toNat = payloadLen s.kindR - 1 then
            { s with payR := pay, cnt := 0, phase := .idle, outValidR := true }
          else { s with payR := pay, cnt := s.cnt + 1 })

/-- R130: IDENT_BYTE is counted and discarded; the 8th returns to `IDLE` with nothing emitted. -/
def Obligations.IdentityByteIsDiscarded : Prop :=
  ∀ (s : State) (v : Byte), s.phase = .ident → s.cnt.toNat < 8 →
    exec (.identByte v) s =
      .next (if s.cnt = 7 then { s with cnt := 0, phase := .idle } else { s with cnt := s.cnt + 1 })

/-- R131: END_CLEAN is what `End` in `IDLE` is; it makes `done` 1; and `End` is never taken while a frame waits. -/
def Obligations.EndAtBoundaryIsClean : Prop :=
  ∀ s : State,
    (s.fetch = .row .endClean ↔ s.ends = true ∧ s.phase = .idle) ∧
    (s.outValidR = true → s.ends = false) ∧
    (s.phase = .idle → s.outValidR = false →
      ∃ t, exec .endClean s = .next t ∧ t = { s with phase := .done } ∧ t.outputs.done = true ∧
        t.outputs.errValid = false)

/-- R132 and R204: END_TRUNC is what `End` in the other parsing phases is, whatever `esc` holds. -/
def Obligations.EndInsideFrameIsTruncation : Prop :=
  ∀ s : State,
    (s.fetch = .row .endTrunc ↔ s.ends = true ∧ s.phase ≠ .idle) ∧
    (s.phase ∈ [Phase.marker, Phase.ts, Phase.level, Phase.payload, Phase.ident] → s.outValidR = false →
      exec .endTrunc s =
        .next { s with
          phase := .error, esc := .normal
          errCodeR := .truncatedFrame, errPhaseR := s.phase, errOffsetR := s.offR })

/-- R42: TAKE happens exactly when `rst = 0`, `out_valid_r = 1` and `out_ready = 1`, and clears `out_valid_r` only. -/
def Obligations.TakeClearsOutValidOnly : Prop :=
  ∀ s : State,
    (s.fetch = .row .take ↔ s.sample.rst = false ∧ s.outValidR = true ∧ s.sample.outReady = true) ∧
    (s.outValidR = true → exec .take s = .next { s with outValidR := false })

/-- R44: WAIT is the step with `rst = 0` and none of `Accept`, `End`, `Take`, and changes no register. -/
def Obligations.WaitChangesNothing : Prop :=
  ∀ s : State,
    (s.fetch = .row .wait ↔ s.sample.rst = false ∧ s.accepts = false ∧ s.ends = false ∧ s.takes = false) ∧
    exec .wait s = .next s

/-- RESET, in every state (R230): the values of R50 in every register. The inputs to come are the host's and stay
(log entry 1), and so does the width of the build (log entry 2). -/
def Obligations.ResetLoadsEveryRegister : Prop :=
  ∀ s : State, ∃ t, exec .reset s = .next t ∧ t.phase = .idle ∧ t.esc = .normal ∧ t.cnt = 0 ∧ t.offR = 0 ∧
    t.kindR = .unset ∧ t.tsR = 0 ∧ t.levelR = 0 ∧ (∀ j : Fin 14, t.payR[j.val] = 0) ∧ t.outValidR = false ∧
    t.errCodeR = .none ∧ t.errPhaseR = .idle ∧ t.errOffsetR = 0 ∧ t.pins = s.pins ∧ t.config = s.config

/-! ### The step -/

/-- R230: a step with `rst = 1`, from any state and whatever the other inputs are: no handshake, and what the ports show
after. -/
def Obligations.ResetStepWinsOverEverything : Prop :=
  ∀ s : State, s.sample.rst = true →
    s.accepts = false ∧ s.ends = false ∧ s.takes = false ∧
    ∃ t, step s = .next t ∧ t.sameRegisters (State.resetWith s.config) ∧ t.outputs.outValid = false ∧
      t.outputs.done = false ∧ t.outputs.errValid = false ∧ t.outputs.errCode = 0 ∧ t.outputs.phaseO = 0

/-- R233: any number of reset steps, but none, does what one does. -/
def Obligations.ManyResetStepsAreOne : Prop :=
  ∀ (n : Nat) (s : State), (n + 1) ≤ s.pins.length → (∀ p ∈ s.pins.take (n + 1), p.rst = true) →
    ∃ t u, step s = .next t ∧ core.run (n + 1) s = .next u ∧ u.sameRegisters t

/-- A step performs the row the decoder reads from the registers and the input ports, in the state that has used up the
sample. -/
def Obligations.StepRunsTheDecodedRow : Prop :=
  ∀ (s : State) (i : Instr), s.startsStep = true → decode s.context s.sample = .row i →
    i.wellFormed = true → step s = exec i { s with pins := s.pins.tail }

/-- U12: a state that holds an unused encoding starts no step, but for a reset step. -/
def Obligations.UnusedEncodingStopsTheStep : Prop :=
  ∀ s : State, s.sample.rst = false → 14 ≤ s.cnt.toNat ∨ (s.outValidR = true ∧ s.kindR = .unset) →
    step s = .refused .unusedEncoding

/-- R235, "The block never faults on any input": whatever the ports carry, the step is defined. -/
def Obligations.EveryInputHasAnEffect : Prop :=
  ∀ s : State, s.holdsUnused = false → ∀ p : Ports, ∃ t, step { s with pins := p :: s.pins } = .next t

/-- R137: the decoded step is rule R121, arm for arm, and nothing else. -/
def Obligations.StepIsRuleR121 : Prop :=
  ∀ s : State, s.startsStep = true → step s = .next (stepRule { s with pins := s.pins.tail } s.sample)

/-- R43. -/
def Obligations.EventsExcludeEachOther : Prop :=
  ∀ s : State, ¬(s.accepts = true ∧ s.ends = true) ∧ ¬(s.accepts = true ∧ s.takes = true) ∧
    ¬(s.ends = true ∧ s.takes = true)

/-! ### Encoding -/

/-- Decode and encode agree: every well-formed row is read back from its word, in every context in which it applies. -/
def Obligations.DecodeOfEncodeIsTheRow : Prop :=
  ∀ (i : Instr) (c : Context), i.wellFormed = true → i.appliesIn c = true → decodeWord c (encode i) = .row i

/-- What the decoder reads is a row of the table that the word matches, with an operand the row admits, in the row's
context. -/
def Obligations.DecodedRowMatchesTheTable : Prop :=
  ∀ (c : Context) (w : RowWord) (i : Instr), decodeWord c w = .row i →
    (rowOf i).selects w = true ∧ i.wellFormed = true ∧ i.appliesIn c = true

/-- The word the input ports give is always read: no context and no input is rejected. -/
def Obligations.PortsAreNeverRejected : Prop :=
  ∀ (c : Context) (p : Ports), ∃ i : Instr, decode c p = .row i ∧ (rowOf i).selects (portWord c p) = true

/-- R93: in every state exactly one byte row applies to an accepted byte. -/
def Obligations.ExactlyOneByteRowApplies : Prop :=
  ∀ (p : Phase) (e : Esc) (f : RowFormat) (b : Byte), byteFormat p e = some f →
    (byteRows.filter fun r => r.selects { format := f, bits := b }).length = 1

/-- R171: the marker rows are the classifier's decision, for all 256 bytes, as `MARKER` reads them whatever else the
state holds; and a step that takes the byte does what the decision says. -/
def Obligations.MarkerRowsFollowTheClassifier : Prop :=
  (∀ b : Byte, classifyMarker b =
    (if b = 0x31 then .data .modeAC else if b = 0x32 then .data .modeSShort else if b = 0x33 then .data .modeSLong
      else if b = 0xE3 then .identity else .unknown)) ∧
  (∀ (s : State) (b : Byte), s.phase = .marker → s.accepts = true → s.sample.inData = b →
    s.fetch = .row
      (if b = 0x31 then .markAc else if b = 0x32 then .markSs else if b = 0x33 then .markSl
        else if b = 0xE3 then .markId else .markBad b)) ∧
  ∀ (s : State) (b : Byte), s.phase = .marker → s.accepts = true → s.sample.inData = b → s.holdsUnused = false →
    ∃ t, step s = .next t ∧
      match classifyMarker b with
      | .data k => t.phase = .ts ∧ t.kindR = k
      | .identity => t.phase = .ident ∧ t.kindR = s.kindR
      | .unknown => t.phase = .error ∧ t.errCodeR = .unknownFrameType

/-- A few words written out from the encoding tables decode to their rows. -/
def Obligations.WrittenWordsDecode : Prop :=
  decodeWord ⟨.idle, .normal, false⟩ ⟨.boundary, 0b00011010⟩ = .row .lead ∧
  decodeWord ⟨.marker, .normal, false⟩ ⟨.marker, 0b11100011⟩ = .row .markId ∧
  decodeWord ⟨.ident, .normal, false⟩ ⟨.fieldNormal, 0b11100011⟩ = .row (.fieldLiteral 0xE3) ∧
  decodeWord ⟨.payload, .afterEscape, false⟩ ⟨.fieldEsc, 0b00011010⟩ = .row .fieldEscClose ∧
  decodeWord ⟨.level, .normal, false⟩ ⟨.logicalByte, 0b10000000⟩ = .row (.levelByte 0x80) ∧
  decodeWord ⟨.ts, .normal, false⟩ ⟨.event, 0b0010⟩ = .row .endTrunc ∧
  decodeWord ⟨.idle, .normal, true⟩ ⟨.event, 0b0101⟩ = .row .take

/-! ### Output ports -/

/-- R28: `pay_r[i]` stands at bits `[111-8i : 104-8i]` of `out_payload`, and the other output ports show their registers. -/
def Obligations.OutputPortsShowTheRegisters : Prop :=
  ∀ s : State,
    (∀ j : Fin 14, s.outputs.outPayload.extractLsb' (104 - 8 * j.val) 8 = s.payR[j.val]) ∧
    s.outputs.outValid = s.outValidR ∧ s.outputs.outKind = kindCode s.kindR ∧
    s.outputs.outLen.toNat = payloadLen s.kindR ∧ s.outputs.outTs = s.tsR ∧ s.outputs.outLevel = s.levelR

/-- R29 and R45: the status ports show the phase and the error record; `in_ready` is 1 exactly in a parsing phase with no frame
waiting, and no byte and no `End` is taken but in a step without reset in which it is 1. -/
def Obligations.StatusPortsFollowThePhase : Prop :=
  ∀ s : State,
    (s.outputs.done = true ↔ s.phase = .done) ∧ (s.outputs.errValid = true ↔ s.phase = .error) ∧
    s.outputs.errCode = errCodeBits s.errCodeR ∧ s.outputs.errPhase = phaseCode s.errPhaseR ∧
    s.outputs.errOffset = s.errOffsetR ∧ s.outputs.phaseO = phaseCode s.phase ∧
    (s.outputs.inReady = true ↔
      s.phase ∈ [Phase.idle, Phase.marker, Phase.ts, Phase.level, Phase.payload, Phase.ident] ∧ s.outValidR = false) ∧
    (s.accepts = true ∨ s.ends = true → s.outputs.inReady = true ∧ s.sample.rst = false)

/-! ### Invariants -/

/-- The state after reset has the invariants, whatever the width of the build. -/
def Obligations.ResetStateHasTheInvariants : Prop :=
  ∀ c : Config, (State.resetWith c).inv ∧ (State.resetWith c).unusedPayloadZero

/-- R49 (with what it needs to be inductive) is kept by every step, and a state that has it takes a step. -/
def Obligations.EveryStepKeepsR49 : Prop :=
  ∀ s : State, s.inv → ∃ t, step s = .next t ∧ t.inv

/-- R158 made inductive: the payload bytes a frame has not filled, or does not use, stay 0. -/
def Obligations.EveryStepKeepsUnusedPayloadZero : Prop :=
  ∀ s t : State, s.inv → s.unusedPayloadZero → step s = .next t → t.unusedPayloadZero

/-- R49: every state reached from reset, under whatever inputs, satisfies the seven invariants. -/
def Obligations.ReachableStatesSatisfyR49 : Prop :=
  ∀ (c : Config) (pins : List Ports) (n : Nat), ∃ t, core.run n { State.resetWith c with pins := pins } = .next t ∧ t.reachableShape

/-- R158: in every state reached from reset that emits a frame, the payload bytes its kind does not use are 0. -/
def Obligations.EmittedFramesHaveZeroTail : Prop :=
  ∀ (c : Config) (pins : List Ports) (n : Nat) (t : State), core.run n { State.resetWith c with pins := pins } = .next t →
    t.outValidR = true → ∀ j : Fin 14, payloadLen t.kindR ≤ j.val → t.payR[j.val] = 0

/-! ### Rules of the whole machine -/

/-- R133: `off_r` advances in exactly the steps that take a byte, those that raise an error among them. -/
def Obligations.OffsetCountsTakenBytes : Prop :=
  ∀ s t : State, s.sample.rst = false → step s = .next t →
    t.offR = if s.accepts = true then (s.offR + 1) % s.config.offsets else s.offR

/-- R33: `off_r` is 0 after reset, and over a run without reset it counts the raw bytes taken, modulo `2^OFFSET_W`, for every
`OFFSET_W` (R10). -/
def Obligations.OffsetIsTheStreamPosition : Prop :=
  (∀ c : Config, c.offsets = 2 ^ (c.offsetW : Nat) ∧ (State.resetWith c).offR = 0) ∧
  ∀ (n : Nat) (s t : State), s.offR < s.config.offsets → (∀ p ∈ s.pins.take n, p.rst = false) → core.run n s = .next t →
    t.offR < t.config.offsets ∧ t.config = s.config ∧ t.offR = (s.offR + (takenBytes n s).length) % s.config.offsets

/-- R206 and R208: what a step that enters `ERROR` leaves: the record, which kind goes with which phase, and the registers
that keep their values. -/
def Obligations.ErrorEntryRecordsTheCause : Prop :=
  ∀ s t : State, s.phase ≠ .error → step s = .next t → t.phase = .error →
    t.errPhaseR = s.phase ∧ t.errOffsetR = s.offR ∧ t.esc = .normal ∧ s.outValidR = false ∧ t.outValidR = false ∧
    t.cnt = s.cnt ∧ t.kindR = s.kindR ∧ t.tsR = s.tsR ∧ t.levelR = s.levelR ∧ t.payR = s.payR ∧
    ((s.accepts = true ∧ t.offR = (s.offR + 1) % s.config.offsets ∧
        ((s.phase = .idle ∧ t.errCodeR = .unexpectedLeadByte) ∨ (s.phase = .marker ∧ t.errCodeR = .unknownFrameType) ∨
          (isFieldPhase s.phase = true ∧ s.esc = .afterEscape ∧ t.errCodeR = .invalidEscapeSequence))) ∨
      (s.ends = true ∧ t.offR = s.offR ∧ s.phase ≠ .idle ∧ t.errCodeR = .truncatedFrame))

/-- R209 and R39: an error is sticky. Without a reset step, however long the run and whatever the inputs, the block stays in
`ERROR` with the same record and takes nothing. -/
def Obligations.ErrorIsSticky : Prop :=
  ∀ (n : Nat) (s : State), s.phase = .error → s.holdsUnused = false → (∀ p ∈ s.pins.take n, p.rst = false) →
    ∃ t, core.run n s = .next t ∧ t.phase = .error ∧ t.outputs.errValid = true ∧ t.outputs.inReady = false ∧
      t.errCodeR = s.errCodeR ∧ t.errPhaseR = s.errPhaseR ∧ t.errOffsetR = s.errOffsetR ∧ t.offR = s.offR

/-- R134: only a reset step leaves `DONE` or `ERROR`; no byte and no `End` is taken there. -/
def Obligations.OnlyResetLeavesTerminalPhases : Prop :=
  ∀ s t : State, s.phase = .done ∨ s.phase = .error → s.sample.rst = false → step s = .next t →
    t.phase = s.phase ∧ s.outputs.inReady = false ∧ s.accepts = false ∧ s.ends = false

/-- R181: the frame stays on the ports, unchanged, for as many steps as the consumer waits, and no byte is taken. -/
def Obligations.FrameWaitsForTheConsumer : Prop :=
  ∀ (n : Nat) (s : State), s.inv → s.outValidR = true →
    (∀ p ∈ s.pins.take n, p.rst = false ∧ p.outReady = false) →
    ∃ t, core.run n s = .next t ∧ t.outputs = s.outputs ∧ t.frame? = s.frame? ∧ takenBytes n s = []

/-- R183 and R180: `out_valid_r` rises only in the step that takes the last payload byte of a frame with a kind. -/
def Obligations.OutValidRisesWithTheLastPayloadByte : Prop :=
  ∀ s t : State, s.inv → step s = .next t → s.outValidR = false → t.outValidR = true →
    s.accepts = true ∧ s.phase = .payload ∧ s.cnt.toNat + 1 = payloadLen s.kindR ∧ s.kindR ≠ .unset ∧
    t.kindR = s.kindR ∧ t.phase = .idle ∧ ∃ f, t.frame? = some f ∧ f.wellFormed = true

/-- R106: a field ends only in the step that takes the byte carrying its `L`-th logical byte, never on an opening escape byte,
and the next field or frame starts with `esc = 0`. -/
def Obligations.FieldsEndOnTheirLastLogicalByte : Prop :=
  ∀ s t : State, s.inv → isFieldPhase s.phase = true → s.sample.rst = false → step s = .next t →
    t.phase ≠ s.phase → t.phase ≠ .error →
      s.accepts = true ∧ s.cnt.toNat + 1 = fieldLen s.phase s.kindR ∧ t.phase = nextPhase s.phase ∧ t.esc = .normal ∧
      t.cnt = 0 ∧ (s.sample.inData = escByte ↔ s.esc = .afterEscape)

/-- R153 and R156: timestamp, level and payload are carried and never looked at: they do not influence any other register. -/
def Obligations.CapturedDataNeverSteersTheBlock : Prop :=
  ∀ s t s' t' : State, s.sameControl t → s.pins = t.pins → step s = .next s' → step t = .next t' → s'.sameControl t'

/-- Waiting steps leave no trace (R44, R62): two runs, of whatever lengths and with whatever idle steps between, in which the
same events happen in the same order leave the same registers. -/
def Obligations.OnlyEventsMatter : Prop :=
  ∀ (n m : Nat) (s t s' t' : State), s.sameRegisters t → events n s = events m t → core.run n s = .next s' →
    core.run m t = .next t' → s'.sameRegisters t'

/-! ### The timestamp -/

/-- R150 and R152: six timestamp bytes leave their big-endian value, whatever `ts_r` held before. -/
def Obligations.SixBytesMakeTheTimestamp : Prop :=
  ∀ (s : State) (b0 b1 b2 b3 b4 b5 : Byte), s.phase = .ts → s.cnt = 0 →
    ∃ t, execAll [.tsByte b0, .tsByte b1, .tsByte b2, .tsByte b3, .tsByte b4, .tsByte b5] s = .next t ∧
      t = { s with tsR := t.tsR, phase := .level } ∧
      t.tsR.toNat = b0.toNat * 2 ^ 40 + b1.toNat * 2 ^ 32 + b2.toNat * 2 ^ 24 + b3.toNat * 2 ^ 16 + b4.toNat * 2 ^ 8 +
        b5.toNat

/-! ### The wire format -/

/-- R86: a field is escaped byte by byte, and its raw length and bounds. -/
def Obligations.EscapedFieldLength : Prop :=
  escapeField [0x1A] = [0x1A, 0x1A] ∧ (∀ v : Byte, v ≠ 0x1A → escapeField [v] = [v]) ∧
  (∀ xs ys : List Byte, escapeField (xs ++ ys) = escapeField xs ++ escapeField ys) ∧
  ∀ bytes : List Byte, (escapeField bytes).length = bytes.length + bytes.count 0x1A ∧
    bytes.length ≤ (escapeField bytes).length ∧ (escapeField bytes).length ≤ 2 * bytes.length

/-- R87: the raw length of a frame, and its bounds by kind. -/
def Obligations.FrameLengthBounds : Prop :=
  (∀ f : DecodedFrame, f.wellFormed = true →
    (encodeFrame f).length =
      2 + (6 + (timestampBytes f.timestamp).count 0x1A) + (1 + [f.signalLevel].count 0x1A) +
        (payloadLen (kindOfFrame f.kind) + f.payload.count 0x1A) ∧
    (f.kind = .modeAC → 11 ≤ (encodeFrame f).length ∧ (encodeFrame f).length ≤ 20) ∧
    (f.kind = .modeSShort → 16 ≤ (encodeFrame f).length ∧ (encodeFrame f).length ≤ 30) ∧
    (f.kind = .modeSLong → 23 ≤ (encodeFrame f).length ∧ (encodeFrame f).length ≤ 44)) ∧
  (∀ body : List Byte, body.length = 8 →
    (encodeIdent body).length = 2 + (8 + body.count 0x1A) ∧ 10 ≤ (encodeIdent body).length ∧
      (encodeIdent body).length ≤ 18)

/-- R91: every raw byte sequence is the wire image of at most one sequence of frames and identity bodies. -/
def Obligations.WireImageIsUnambiguous : Prop :=
  ∀ xs ys : List StreamFrame, (∀ x ∈ xs, x.wellFormed = true) → (∀ y ∈ ys, y.wellFormed = true) →
    streamBytes xs = streamBytes ys → xs = ys

/-- R185: round trip. From a reachable `IDLE` with no frame waiting, the bytes `Encode(f)`, offered one a step with whatever on
`in_eos` and `out_ready`, make the block emit exactly `f` and return to `IDLE`, having taken exactly those bytes. -/
def Obligations.RoundTripOfOneFrame : Prop :=
  ∀ (f : DecodedFrame) (s : State) (ps rest : List Ports), f.wellFormed = true → s.inv → s.phase = .idle →
    s.outValidR = false → offers ps (encodeFrame f) → s.pins = ps ++ rest →
      ∃ t, core.run (encodeFrame f).length s = .next t ∧ t.phase = .idle ∧ t.pins = rest ∧
        t.outputs.outValid = true ∧ t.outputs.outKind = kindCode (kindOfFrame f.kind) ∧
        t.outputs.outTs = f.timestamp ∧ t.outputs.outLevel = f.signalLevel ∧
        t.outputs.outLen.toNat = f.payload.length ∧
        (∀ (j : Nat) (h : j < f.payload.length), t.outputs.outPayload.extractLsb' (104 - 8 * j) 8 = f.payload[j]) ∧
        t.frame? = some f ∧ takenBytes (encodeFrame f).length s = encodeFrame f ∧
        t.offR = (s.offR + (encodeFrame f).length) % s.config.offsets

/-- R127, R130 and R108: a receiver-identity frame is consumed silently: 8 logical bytes after its marker the block is as it
was, but for the byte offset. -/
def Obligations.IdentityFrameLeavesNoTrace : Prop :=
  ∀ (body : List Byte) (s : State) (ps rest : List Ports), body.length = 8 → s.inv → s.phase = .idle →
    s.outValidR = false → offers ps (encodeIdent body) → s.pins = ps ++ rest →
      core.run (encodeIdent body).length s =
        .next { s with
          offR := (s.offR + (encodeIdent body).length) % s.config.offsets
          pins := rest } ∧
      delivered (encodeIdent body).length s = []

/-- R186 (and the step counts of R239): a stream of frames, then `End`, delivers exactly its data frames, in order, each once,
and ends in `DONE`. -/
def Obligations.StreamDeliversItsFramesInOrder : Prop :=
  ∀ (xs : List StreamFrame) (s : State) (rest : List Ports), (∀ x ∈ xs, x.wellFormed = true) → s.inv →
    s.phase = .idle → s.outValidR = false → s.pins = streamSteps xs ++ offerEnd :: rest →
      (streamSteps xs).length = (streamBytes xs).length + (dataFrames xs).length ∧
      delivered ((streamSteps xs).length + 1) s = dataFrames xs ∧
      ∃ t, core.run ((streamSteps xs).length + 1) s = .next t ∧ t.phase = .done ∧ t.outputs.done = true ∧
        t.outValidR = false ∧ t.errCodeR = .none ∧
        t.offR = (s.offR + (streamBytes xs).length) % s.config.offsets

/-- R186 for any schedule of the source and the consumer: whenever a run without reset has taken exactly the bytes of a stream and
stands in `DONE`, the consumer has been given exactly the stream's data frames, in order, each once. -/
def Obligations.AnyScheduleDeliversTheSameFrames : Prop :=
  ∀ (xs : List StreamFrame) (n : Nat) (s t : State), (∀ x ∈ xs, x.wellFormed = true) → s.inv → s.phase = .idle →
    s.outValidR = false → (∀ p ∈ s.pins.take n, p.rst = false) → core.run n s = .next t →
    takenBytes n s = streamBytes xs → t.phase = .done → delivered n s = dataFrames xs

/-- R136: a valid stream truncated strictly inside a frame, and then `End`: the frames before are delivered, no partial frame
is, and the block ends in `ERROR` with `TruncatedFrame` at the offset of the missing byte. -/
def Obligations.TruncationIsAnErrorNeverAPartialFrame : Prop :=
  ∀ (xs : List StreamFrame) (x : StreamFrame) (k : Nat) (s : State) (rest : List Ports),
    (∀ y ∈ xs, y.wellFormed = true) → x.wellFormed = true → 1 ≤ k → k < x.bytes.length → s.inv → s.phase = .idle →
    s.outValidR = false → s.pins = streamSteps xs ++ ((x.bytes.take k).map offerByte ++ offerEnd :: rest) →
      delivered ((streamSteps xs).length + k + 1) s = dataFrames xs ∧
      ∃ t, core.run ((streamSteps xs).length + k + 1) s = .next t ∧ t.phase = .error ∧
        t.errCodeR = .truncatedFrame ∧ t.outValidR = false ∧
        t.errOffsetR = (s.offR + (streamBytes xs).length + k) % s.config.offsets

/-- R211 and R125: a byte other than `0x1A` after a valid stream is the error at exactly its offset, and every frame before it
has been delivered. -/
def Obligations.BadByteAfterStreamIsPrecise : Prop :=
  ∀ (xs : List StreamFrame) (b : Byte) (s : State) (rest : List Ports), (∀ x ∈ xs, x.wellFormed = true) → b ≠ 0x1A →
    s.inv → s.phase = .idle → s.outValidR = false → s.pins = streamSteps xs ++ offerByte b :: rest →
      delivered ((streamSteps xs).length + 1) s = dataFrames xs ∧
      ∃ t, core.run ((streamSteps xs).length + 1) s = .next t ∧ t.phase = .error ∧
        t.errCodeR = .unexpectedLeadByte ∧ t.errPhaseR = .idle ∧ t.outValidR = false ∧
        t.errOffsetR = (s.offR + (streamBytes xs).length) % s.config.offsets

/-! ### The width of the build -/

/-- R10 and the widths of R33 and R39: no step changes `OFFSET_W`, and the two offset registers keep to its bits. -/
def Obligations.EveryStepKeepsTheOffsetWidth : Prop :=
  ∀ s t : State, step s = .next t → t.config = s.config ∧ (s.offsetsFit → t.offsetsFit)
end

