-- ==== Sys2Proof/Laws/Flags.lean ====
section
/-! SUPPORT. The payload port and the timestamp register as numbers, byte by byte. -/

namespace Sys2Proof.Machine

/-- Appending a byte at the low end multiplies by 256 and adds it. -/
theorem append_byte_toNat {w : Nat} (x : BitVec w) (b : Byte) : (x ++ b).toNat = x.toNat * 256 + b.toNat := by
  have h := Nat.two_pow_add_eq_or_of_lt b.isLt x.toNat
  rw [BitVec.toNat_append, Nat.shiftLeft_eq, Nat.mul_comm x.toNat, ← h, Nat.mul_comm]

/-- `out_payload` read as a big-endian number of the fourteen payload bytes (R28). -/
theorem State.outPayload_toNat (s : State) :
    s.outPayload.toNat =
      ((((((((((((s.payR[0].toNat * 256 + s.payR[1].toNat) * 256 + s.payR[2].toNat) * 256 + s.payR[3].toNat) * 256 +
        s.payR[4].toNat) * 256 + s.payR[5].toNat) * 256 + s.payR[6].toNat) * 256 + s.payR[7].toNat) * 256 +
        s.payR[8].toNat) * 256 + s.payR[9].toNat) * 256 + s.payR[10].toNat) * 256 + s.payR[11].toNat) * 256 +
        s.payR[12].toNat) * 256 + s.payR[13].toNat := by
  simp only [← append_byte_toNat]
  rfl

end Sys2Proof.Machine
end

