-- ==== Sys2Proof/Laws/State.lean ====
section
/-! SUPPORT. One lemma per register and per update of `Machine/Ops.lean`, each true by definition, so that no proof unfolds a
record update. -/

namespace Sys2Proof.Machine

/-! ### Registers after the use of a sample -/

@[simp] theorem State.advance_config (s : State) : s.advance.config = s.config := rfl
@[simp] theorem State.advance_phase (s : State) : s.advance.phase = s.phase := rfl
@[simp] theorem State.advance_esc (s : State) : s.advance.esc = s.esc := rfl
@[simp] theorem State.advance_cnt (s : State) : s.advance.cnt = s.cnt := rfl
@[simp] theorem State.advance_offR (s : State) : s.advance.offR = s.offR := rfl
@[simp] theorem State.advance_kindR (s : State) : s.advance.kindR = s.kindR := rfl
@[simp] theorem State.advance_tsR (s : State) : s.advance.tsR = s.tsR := rfl
@[simp] theorem State.advance_levelR (s : State) : s.advance.levelR = s.levelR := rfl
@[simp] theorem State.advance_payR (s : State) : s.advance.payR = s.payR := rfl
@[simp] theorem State.advance_outValidR (s : State) : s.advance.outValidR = s.outValidR := rfl
@[simp] theorem State.advance_errCodeR (s : State) : s.advance.errCodeR = s.errCodeR := rfl
@[simp] theorem State.advance_errPhaseR (s : State) : s.advance.errPhaseR = s.errPhaseR := rfl
@[simp] theorem State.advance_errOffsetR (s : State) : s.advance.errOffsetR = s.errOffsetR := rfl
@[simp] theorem State.advance_pins (s : State) : s.advance.pins = s.pins.tail := rfl

/-! ### Registers after taking a byte (R133) -/

@[simp] theorem State.takeByte_config (s : State) : s.takeByte.config = s.config := rfl
@[simp] theorem State.takeByte_phase (s : State) : s.takeByte.phase = s.phase := rfl
@[simp] theorem State.takeByte_esc (s : State) : s.takeByte.esc = s.esc := rfl
@[simp] theorem State.takeByte_cnt (s : State) : s.takeByte.cnt = s.cnt := rfl
@[simp] theorem State.takeByte_offR (s : State) : s.takeByte.offR = (s.offR + 1) % s.config.offsets := rfl
@[simp] theorem State.takeByte_kindR (s : State) : s.takeByte.kindR = s.kindR := rfl
@[simp] theorem State.takeByte_tsR (s : State) : s.takeByte.tsR = s.tsR := rfl
@[simp] theorem State.takeByte_levelR (s : State) : s.takeByte.levelR = s.levelR := rfl
@[simp] theorem State.takeByte_payR (s : State) : s.takeByte.payR = s.payR := rfl
@[simp] theorem State.takeByte_outValidR (s : State) : s.takeByte.outValidR = s.outValidR := rfl
@[simp] theorem State.takeByte_errCodeR (s : State) : s.takeByte.errCodeR = s.errCodeR := rfl
@[simp] theorem State.takeByte_errPhaseR (s : State) : s.takeByte.errPhaseR = s.errPhaseR := rfl
@[simp] theorem State.takeByte_errOffsetR (s : State) : s.takeByte.errOffsetR = s.errOffsetR := rfl
@[simp] theorem State.takeByte_pins (s : State) : s.takeByte.pins = s.pins := rfl

/-! ### Registers after error entry (R206) -/

@[simp] theorem State.raise_config (s : State) (e : ErrCode) : (s.raise e).config = s.config := rfl
@[simp] theorem State.raise_phase (s : State) (e : ErrCode) : (s.raise e).phase = .error := rfl
@[simp] theorem State.raise_esc (s : State) (e : ErrCode) : (s.raise e).esc = .normal := rfl
@[simp] theorem State.raise_cnt (s : State) (e : ErrCode) : (s.raise e).cnt = s.cnt := rfl
@[simp] theorem State.raise_offR (s : State) (e : ErrCode) : (s.raise e).offR = s.offR := rfl
@[simp] theorem State.raise_kindR (s : State) (e : ErrCode) : (s.raise e).kindR = s.kindR := rfl
@[simp] theorem State.raise_tsR (s : State) (e : ErrCode) : (s.raise e).tsR = s.tsR := rfl
@[simp] theorem State.raise_levelR (s : State) (e : ErrCode) : (s.raise e).levelR = s.levelR := rfl
@[simp] theorem State.raise_payR (s : State) (e : ErrCode) : (s.raise e).payR = s.payR := rfl
@[simp] theorem State.raise_outValidR (s : State) (e : ErrCode) : (s.raise e).outValidR = s.outValidR := rfl
@[simp] theorem State.raise_errCodeR (s : State) (e : ErrCode) : (s.raise e).errCodeR = e := rfl
@[simp] theorem State.raise_errPhaseR (s : State) (e : ErrCode) : (s.raise e).errPhaseR = s.phase := rfl
@[simp] theorem State.raise_errOffsetR (s : State) (e : ErrCode) : (s.raise e).errOffsetR = s.offR := rfl
@[simp] theorem State.raise_pins (s : State) (e : ErrCode) : (s.raise e).pins = s.pins := rfl

/-! ### Registers after error entry on a taken byte (R206, R133) -/

@[simp] theorem State.raiseOnByte_config (s : State) (e : ErrCode) : (s.raiseOnByte e).config = s.config := rfl
@[simp] theorem State.raiseOnByte_phase (s : State) (e : ErrCode) : (s.raiseOnByte e).phase = .error := rfl
@[simp] theorem State.raiseOnByte_esc (s : State) (e : ErrCode) : (s.raiseOnByte e).esc = .normal := rfl
@[simp] theorem State.raiseOnByte_cnt (s : State) (e : ErrCode) : (s.raiseOnByte e).cnt = s.cnt := rfl
@[simp] theorem State.raiseOnByte_offR (s : State) (e : ErrCode) : (s.raiseOnByte e).offR = (s.offR + 1) % s.config.offsets := rfl
@[simp] theorem State.raiseOnByte_kindR (s : State) (e : ErrCode) : (s.raiseOnByte e).kindR = s.kindR := rfl
@[simp] theorem State.raiseOnByte_tsR (s : State) (e : ErrCode) : (s.raiseOnByte e).tsR = s.tsR := rfl
@[simp] theorem State.raiseOnByte_levelR (s : State) (e : ErrCode) : (s.raiseOnByte e).levelR = s.levelR := rfl
@[simp] theorem State.raiseOnByte_payR (s : State) (e : ErrCode) : (s.raiseOnByte e).payR = s.payR := rfl
@[simp] theorem State.raiseOnByte_outValidR (s : State) (e : ErrCode) : (s.raiseOnByte e).outValidR = s.outValidR := rfl
@[simp] theorem State.raiseOnByte_errCodeR (s : State) (e : ErrCode) : (s.raiseOnByte e).errCodeR = e := rfl
@[simp] theorem State.raiseOnByte_errPhaseR (s : State) (e : ErrCode) : (s.raiseOnByte e).errPhaseR = s.phase := rfl
@[simp] theorem State.raiseOnByte_errOffsetR (s : State) (e : ErrCode) : (s.raiseOnByte e).errOffsetR = s.offR := rfl
@[simp] theorem State.raiseOnByte_pins (s : State) (e : ErrCode) : (s.raiseOnByte e).pins = s.pins := rfl

/-! ### Registers after a reset step (R50, R230) -/

@[simp] theorem State.loadReset_config (s : State) : s.loadReset.config = s.config := rfl
@[simp] theorem State.loadReset_phase (s : State) : s.loadReset.phase = .idle := rfl
@[simp] theorem State.loadReset_esc (s : State) : s.loadReset.esc = .normal := rfl
@[simp] theorem State.loadReset_cnt (s : State) : s.loadReset.cnt = 0 := rfl
@[simp] theorem State.loadReset_offR (s : State) : s.loadReset.offR = 0 := rfl
@[simp] theorem State.loadReset_kindR (s : State) : s.loadReset.kindR = .unset := rfl
@[simp] theorem State.loadReset_tsR (s : State) : s.loadReset.tsR = 0 := rfl
@[simp] theorem State.loadReset_levelR (s : State) : s.loadReset.levelR = 0 := rfl
@[simp] theorem State.loadReset_payR (s : State) : s.loadReset.payR = Vector.replicate 14 0 := rfl
@[simp] theorem State.loadReset_outValidR (s : State) : s.loadReset.outValidR = false := rfl
@[simp] theorem State.loadReset_errCodeR (s : State) : s.loadReset.errCodeR = .none := rfl
@[simp] theorem State.loadReset_errPhaseR (s : State) : s.loadReset.errPhaseR = .idle := rfl
@[simp] theorem State.loadReset_errOffsetR (s : State) : s.loadReset.errOffsetR = 0 := rfl
@[simp] theorem State.loadReset_pins (s : State) : s.loadReset.pins = s.pins := rfl

/-! ### Registers after `Classify` (R170) -/

@[simp] theorem State.classify_config (s : State) (b : Byte) : (s.classify b).config = s.config := rfl
@[simp] theorem State.classify_phase (s : State) (b : Byte) : (s.classify b).phase = .ts := rfl
@[simp] theorem State.classify_esc (s : State) (b : Byte) : (s.classify b).esc = .normal := rfl
@[simp] theorem State.classify_cnt (s : State) (b : Byte) : (s.classify b).cnt = 0 := rfl
@[simp] theorem State.classify_offR (s : State) (b : Byte) : (s.classify b).offR = s.offR := rfl
@[simp] theorem State.classify_kindR (s : State) (b : Byte) : (s.classify b).kindR = kindOfCode (b.setWidth 2) := rfl
@[simp] theorem State.classify_tsR (s : State) (b : Byte) : (s.classify b).tsR = 0 := rfl
@[simp] theorem State.classify_levelR (s : State) (b : Byte) : (s.classify b).levelR = 0 := rfl
@[simp] theorem State.classify_payR (s : State) (b : Byte) : (s.classify b).payR = Vector.replicate 14 0 := rfl
@[simp] theorem State.classify_outValidR (s : State) (b : Byte) : (s.classify b).outValidR = s.outValidR := rfl
@[simp] theorem State.classify_errCodeR (s : State) (b : Byte) : (s.classify b).errCodeR = s.errCodeR := rfl
@[simp] theorem State.classify_errPhaseR (s : State) (b : Byte) : (s.classify b).errPhaseR = s.errPhaseR := rfl
@[simp] theorem State.classify_errOffsetR (s : State) (b : Byte) : (s.classify b).errOffsetR = s.errOffsetR := rfl
@[simp] theorem State.classify_pins (s : State) (b : Byte) : (s.classify b).pins = s.pins := rfl

/-! ### Registers after the identity marker (R127) -/

@[simp] theorem State.openIdent_config (s : State) : s.openIdent.config = s.config := rfl
@[simp] theorem State.openIdent_phase (s : State) : s.openIdent.phase = .ident := rfl
@[simp] theorem State.openIdent_esc (s : State) : s.openIdent.esc = .normal := rfl
@[simp] theorem State.openIdent_cnt (s : State) : s.openIdent.cnt = 0 := rfl
@[simp] theorem State.openIdent_offR (s : State) : s.openIdent.offR = s.offR := rfl
@[simp] theorem State.openIdent_kindR (s : State) : s.openIdent.kindR = s.kindR := rfl
@[simp] theorem State.openIdent_tsR (s : State) : s.openIdent.tsR = s.tsR := rfl
@[simp] theorem State.openIdent_levelR (s : State) : s.openIdent.levelR = s.levelR := rfl
@[simp] theorem State.openIdent_payR (s : State) : s.openIdent.payR = s.payR := rfl
@[simp] theorem State.openIdent_outValidR (s : State) : s.openIdent.outValidR = s.outValidR := rfl
@[simp] theorem State.openIdent_errCodeR (s : State) : s.openIdent.errCodeR = s.errCodeR := rfl
@[simp] theorem State.openIdent_errPhaseR (s : State) : s.openIdent.errPhaseR = s.errPhaseR := rfl
@[simp] theorem State.openIdent_errOffsetR (s : State) : s.openIdent.errOffsetR = s.errOffsetR := rfl
@[simp] theorem State.openIdent_pins (s : State) : s.openIdent.pins = s.pins := rfl

/-! ### Registers after the timestamp shift (R151) -/

@[simp] theorem State.shiftTs_config (s : State) (v : Byte) : (s.shiftTs v).config = s.config := rfl
@[simp] theorem State.shiftTs_phase (s : State) (v : Byte) : (s.shiftTs v).phase = s.phase := rfl
@[simp] theorem State.shiftTs_esc (s : State) (v : Byte) : (s.shiftTs v).esc = s.esc := rfl
@[simp] theorem State.shiftTs_cnt (s : State) (v : Byte) : (s.shiftTs v).cnt = s.cnt := rfl
@[simp] theorem State.shiftTs_offR (s : State) (v : Byte) : (s.shiftTs v).offR = s.offR := rfl
@[simp] theorem State.shiftTs_kindR (s : State) (v : Byte) : (s.shiftTs v).kindR = s.kindR := rfl
@[simp] theorem State.shiftTs_tsR (s : State) (v : Byte) : (s.shiftTs v).tsR = s.tsR.setWidth 40 ++ v := rfl
@[simp] theorem State.shiftTs_levelR (s : State) (v : Byte) : (s.shiftTs v).levelR = s.levelR := rfl
@[simp] theorem State.shiftTs_payR (s : State) (v : Byte) : (s.shiftTs v).payR = s.payR := rfl
@[simp] theorem State.shiftTs_outValidR (s : State) (v : Byte) : (s.shiftTs v).outValidR = s.outValidR := rfl
@[simp] theorem State.shiftTs_errCodeR (s : State) (v : Byte) : (s.shiftTs v).errCodeR = s.errCodeR := rfl
@[simp] theorem State.shiftTs_errPhaseR (s : State) (v : Byte) : (s.shiftTs v).errPhaseR = s.errPhaseR := rfl
@[simp] theorem State.shiftTs_errOffsetR (s : State) (v : Byte) : (s.shiftTs v).errOffsetR = s.errOffsetR := rfl
@[simp] theorem State.shiftTs_pins (s : State) (v : Byte) : (s.shiftTs v).pins = s.pins := rfl

/-! ### Registers after the level write (R155) -/

@[simp] theorem State.writeLevel_config (s : State) (v : Byte) : (s.writeLevel v).config = s.config := rfl
@[simp] theorem State.writeLevel_phase (s : State) (v : Byte) : (s.writeLevel v).phase = s.phase := rfl
@[simp] theorem State.writeLevel_esc (s : State) (v : Byte) : (s.writeLevel v).esc = s.esc := rfl
@[simp] theorem State.writeLevel_cnt (s : State) (v : Byte) : (s.writeLevel v).cnt = s.cnt := rfl
@[simp] theorem State.writeLevel_offR (s : State) (v : Byte) : (s.writeLevel v).offR = s.offR := rfl
@[simp] theorem State.writeLevel_kindR (s : State) (v : Byte) : (s.writeLevel v).kindR = s.kindR := rfl
@[simp] theorem State.writeLevel_tsR (s : State) (v : Byte) : (s.writeLevel v).tsR = s.tsR := rfl
@[simp] theorem State.writeLevel_levelR (s : State) (v : Byte) : (s.writeLevel v).levelR = v := rfl
@[simp] theorem State.writeLevel_payR (s : State) (v : Byte) : (s.writeLevel v).payR = s.payR := rfl
@[simp] theorem State.writeLevel_outValidR (s : State) (v : Byte) : (s.writeLevel v).outValidR = s.outValidR := rfl
@[simp] theorem State.writeLevel_errCodeR (s : State) (v : Byte) : (s.writeLevel v).errCodeR = s.errCodeR := rfl
@[simp] theorem State.writeLevel_errPhaseR (s : State) (v : Byte) : (s.writeLevel v).errPhaseR = s.errPhaseR := rfl
@[simp] theorem State.writeLevel_errOffsetR (s : State) (v : Byte) : (s.writeLevel v).errOffsetR = s.errOffsetR := rfl
@[simp] theorem State.writeLevel_pins (s : State) (v : Byte) : (s.writeLevel v).pins = s.pins := rfl

/-! ### Registers after the payload write (R157) -/

@[simp] theorem State.writePayload_config (s : State) (v : Byte) : (s.writePayload v).config = s.config := rfl
@[simp] theorem State.writePayload_phase (s : State) (v : Byte) : (s.writePayload v).phase = s.phase := rfl
@[simp] theorem State.writePayload_esc (s : State) (v : Byte) : (s.writePayload v).esc = s.esc := rfl
@[simp] theorem State.writePayload_cnt (s : State) (v : Byte) : (s.writePayload v).cnt = s.cnt := rfl
@[simp] theorem State.writePayload_offR (s : State) (v : Byte) : (s.writePayload v).offR = s.offR := rfl
@[simp] theorem State.writePayload_kindR (s : State) (v : Byte) : (s.writePayload v).kindR = s.kindR := rfl
@[simp] theorem State.writePayload_tsR (s : State) (v : Byte) : (s.writePayload v).tsR = s.tsR := rfl
@[simp] theorem State.writePayload_levelR (s : State) (v : Byte) : (s.writePayload v).levelR = s.levelR := rfl
@[simp] theorem State.writePayload_payR (s : State) (v : Byte) : (s.writePayload v).payR = s.payR.setIfInBounds s.cnt.toNat v := rfl
@[simp] theorem State.writePayload_outValidR (s : State) (v : Byte) : (s.writePayload v).outValidR = s.outValidR := rfl
@[simp] theorem State.writePayload_errCodeR (s : State) (v : Byte) : (s.writePayload v).errCodeR = s.errCodeR := rfl
@[simp] theorem State.writePayload_errPhaseR (s : State) (v : Byte) : (s.writePayload v).errPhaseR = s.errPhaseR := rfl
@[simp] theorem State.writePayload_errOffsetR (s : State) (v : Byte) : (s.writePayload v).errOffsetR = s.errOffsetR := rfl
@[simp] theorem State.writePayload_pins (s : State) (v : Byte) : (s.writePayload v).pins = s.pins := rfl

/-! ### Registers after reset (R50) -/

@[simp] theorem State.resetWith_config (c : Config) : (State.resetWith c).config = c := rfl
@[simp] theorem State.resetWith_phase (c : Config) : (State.resetWith c).phase = .idle := rfl
@[simp] theorem State.resetWith_esc (c : Config) : (State.resetWith c).esc = .normal := rfl
@[simp] theorem State.resetWith_cnt (c : Config) : (State.resetWith c).cnt = 0 := rfl
@[simp] theorem State.resetWith_offR (c : Config) : (State.resetWith c).offR = 0 := rfl
@[simp] theorem State.resetWith_kindR (c : Config) : (State.resetWith c).kindR = .unset := rfl
@[simp] theorem State.resetWith_tsR (c : Config) : (State.resetWith c).tsR = 0 := rfl
@[simp] theorem State.resetWith_levelR (c : Config) : (State.resetWith c).levelR = 0 := rfl
@[simp] theorem State.resetWith_payR (c : Config) : (State.resetWith c).payR = Vector.replicate 14 0 := rfl
@[simp] theorem State.resetWith_outValidR (c : Config) : (State.resetWith c).outValidR = false := rfl
@[simp] theorem State.resetWith_errCodeR (c : Config) : (State.resetWith c).errCodeR = .none := rfl
@[simp] theorem State.resetWith_errPhaseR (c : Config) : (State.resetWith c).errPhaseR = .idle := rfl
@[simp] theorem State.resetWith_errOffsetR (c : Config) : (State.resetWith c).errOffsetR = 0 := rfl
@[simp] theorem State.resetWith_pins (c : Config) : (State.resetWith c).pins = [] := rfl

end Sys2Proof.Machine
end

