-- ==== Sys2Proof/Laws/Ops.lean ====
section
/-! SUPPORT. For each shared operation one lemma that says all it can do, and the decoder's answer in each of the cases of rule
R121. Later proofs cite these and do not unfold the operations. -/

namespace Sys2Proof.Machine

/-! ### The two shapes of a meaning -/

theorem runRow_eq_next_iff (c : Bool) (after t : State) : runRow c after = .next t ↔ c = true ∧ t = after := by
  cases c <;> simp [runRow, eq_comm]

theorem runRow_of_context (c : Bool) (after : State) (h : c = true) : runRow c after = .next after := by
  simp [runRow, h]

theorem deliverRow_eq_next_iff (c : Bool) (v : Byte) (s t : State) :
    deliverRow c v s = .next t ↔
      c = true ∧ s.cnt.toNat < 14 ∧ t = ({ s with esc := .normal }).takeByte.deliver v := by
  by_cases hc : c = true
  · by_cases hn : 14 ≤ s.cnt.toNat
    · simp [deliverRow, hc, hn]
    · have hlt : s.cnt.toNat < 14 := by omega
      simp [deliverRow, runRow, hc, hn, hlt, eq_comm]
  · simp [deliverRow, runRow, hc]

/-! ### Lengths and counts -/

theorem payloadLen_le (k : Kind) : payloadLen k ≤ 14 := by
  cases k <;> decide

/-- No field is longer than 14 logical bytes (R32). -/
theorem fieldLen_le (p : Phase) (k : Kind) : fieldLen p k ≤ 14 := by
  cases p <;> cases k <;> decide

/-- Counting does not wrap inside a field. -/
theorem count_succ_toNat (c : BitVec 4) (h : c.toNat < 15) : (c + 1).toNat = c.toNat + 1 := by
  bv_omega

/-! ### Offsets (R10, R33) -/

theorem offsets_pos (c : Config) : 0 < c.offsets :=
  Nat.two_pow_pos _

/-- Counting a byte stays inside the width. -/
theorem State.takeByte_offR_lt (s : State) : s.takeByte.offR < s.config.offsets :=
  Nat.mod_lt _ (offsets_pos _)

/-- Counting `a` bytes and then `b` counts `a + b`. -/
theorem offset_add (c : Config) (o a b : Nat) : ((o + a) % c.offsets + b) % c.offsets = (o + (a + b)) % c.offsets := by
  rw [Nat.mod_add_mod, Nat.add_assoc]

/-! ### The delivery of a logical byte (R123) -/

theorem State.countByte_inside (s : State) (h : s.cnt.toNat + 1 ≠ fieldLen s.phase s.kindR) :
    s.countByte = { s with cnt := s.cnt + 1 } := by
  simp [State.countByte, h]

theorem State.countByte_last (s : State) (h : s.cnt.toNat + 1 = fieldLen s.phase s.kindR) :
    s.countByte =
      { s with cnt := 0, phase := nextPhase s.phase, outValidR := s.outValidR || (s.phase == .payload) } := by
  simp [State.countByte, h]

/-- Everything `countByte` can do. -/
theorem State.countByte_cases (s : State) :
    (s.cnt.toNat + 1 ≠ fieldLen s.phase s.kindR ∧ s.countByte = { s with cnt := s.cnt + 1 }) ∨
    (s.cnt.toNat + 1 = fieldLen s.phase s.kindR ∧ s.countByte =
      { s with cnt := 0, phase := nextPhase s.phase, outValidR := s.outValidR || (s.phase == .payload) }) := by
  by_cases h : s.cnt.toNat + 1 = fieldLen s.phase s.kindR
  · exact .inr ⟨h, s.countByte_last h⟩
  · exact .inl ⟨h, s.countByte_inside h⟩

/-- Everything `storeByte` can do. -/
theorem State.storeByte_cases (s : State) (v : Byte) :
    (s.phase = .ts ∧ s.storeByte v = s.shiftTs v) ∨ (s.phase = .level ∧ s.storeByte v = s.writeLevel v) ∨
    (s.phase = .payload ∧ s.storeByte v = s.writePayload v) ∨
    (s.phase ≠ .ts ∧ s.phase ≠ .level ∧ s.phase ≠ .payload ∧ s.storeByte v = s) := by
  cases h : s.phase <;> simp [State.storeByte, h]

@[simp] theorem State.storeByte_phase (s : State) (v : Byte) : (s.storeByte v).phase = s.phase := by
  obtain ⟨_, h⟩ | ⟨_, h⟩ | ⟨_, h⟩ | ⟨_, _, _, h⟩ := s.storeByte_cases v <;> simp [h]

@[simp] theorem State.storeByte_config (s : State) (v : Byte) : (s.storeByte v).config = s.config := by
  obtain ⟨_, h⟩ | ⟨_, h⟩ | ⟨_, h⟩ | ⟨_, _, _, h⟩ := s.storeByte_cases v <;> simp [h]

@[simp] theorem State.storeByte_esc (s : State) (v : Byte) : (s.storeByte v).esc = s.esc := by
  obtain ⟨_, h⟩ | ⟨_, h⟩ | ⟨_, h⟩ | ⟨_, _, _, h⟩ := s.storeByte_cases v <;> simp [h]

@[simp] theorem State.storeByte_cnt (s : State) (v : Byte) : (s.storeByte v).cnt = s.cnt := by
  obtain ⟨_, h⟩ | ⟨_, h⟩ | ⟨_, h⟩ | ⟨_, _, _, h⟩ := s.storeByte_cases v <;> simp [h]

@[simp] theorem State.storeByte_offR (s : State) (v : Byte) : (s.storeByte v).offR = s.offR := by
  obtain ⟨_, h⟩ | ⟨_, h⟩ | ⟨_, h⟩ | ⟨_, _, _, h⟩ := s.storeByte_cases v <;> simp [h]

@[simp] theorem State.storeByte_kindR (s : State) (v : Byte) : (s.storeByte v).kindR = s.kindR := by
  obtain ⟨_, h⟩ | ⟨_, h⟩ | ⟨_, h⟩ | ⟨_, _, _, h⟩ := s.storeByte_cases v <;> simp [h]

@[simp] theorem State.storeByte_outValidR (s : State) (v : Byte) : (s.storeByte v).outValidR = s.outValidR := by
  obtain ⟨_, h⟩ | ⟨_, h⟩ | ⟨_, h⟩ | ⟨_, _, _, h⟩ := s.storeByte_cases v <;> simp [h]

@[simp] theorem State.storeByte_errCodeR (s : State) (v : Byte) : (s.storeByte v).errCodeR = s.errCodeR := by
  obtain ⟨_, h⟩ | ⟨_, h⟩ | ⟨_, h⟩ | ⟨_, _, _, h⟩ := s.storeByte_cases v <;> simp [h]

@[simp] theorem State.storeByte_errPhaseR (s : State) (v : Byte) : (s.storeByte v).errPhaseR = s.errPhaseR := by
  obtain ⟨_, h⟩ | ⟨_, h⟩ | ⟨_, h⟩ | ⟨_, _, _, h⟩ := s.storeByte_cases v <;> simp [h]

@[simp] theorem State.storeByte_errOffsetR (s : State) (v : Byte) : (s.storeByte v).errOffsetR = s.errOffsetR := by
  obtain ⟨_, h⟩ | ⟨_, h⟩ | ⟨_, h⟩ | ⟨_, _, _, h⟩ := s.storeByte_cases v <;> simp [h]

@[simp] theorem State.storeByte_pins (s : State) (v : Byte) : (s.storeByte v).pins = s.pins := by
  obtain ⟨_, h⟩ | ⟨_, h⟩ | ⟨_, h⟩ | ⟨_, _, _, h⟩ := s.storeByte_cases v <;> simp [h]

/-- The registers no counting touches. -/
theorem State.countByte_frame (s : State) :
    s.countByte.esc = s.esc ∧ s.countByte.offR = s.offR ∧ s.countByte.kindR = s.kindR ∧ s.countByte.tsR = s.tsR ∧
    s.countByte.levelR = s.levelR ∧ s.countByte.payR = s.payR ∧ s.countByte.errCodeR = s.errCodeR ∧
    s.countByte.errPhaseR = s.errPhaseR ∧ s.countByte.errOffsetR = s.errOffsetR ∧ s.countByte.pins = s.pins ∧
    s.countByte.config = s.config := by
  obtain ⟨_, h⟩ | ⟨_, h⟩ := s.countByte_cases <;> simp [h]

/-- Everything a delivery can do: the store, and then the count of the field as it was before. -/
theorem State.deliver_cases (s : State) (v : Byte) :
    (s.cnt.toNat + 1 ≠ fieldLen s.phase s.kindR ∧ s.deliver v = { s.storeByte v with cnt := s.cnt + 1 }) ∨
    (s.cnt.toNat + 1 = fieldLen s.phase s.kindR ∧ s.deliver v =
      { s.storeByte v with
        cnt := 0, phase := nextPhase s.phase, outValidR := s.outValidR || (s.phase == .payload) }) := by
  simpa [State.deliver] using (s.storeByte v).countByte_cases

/-- The registers no delivery touches. -/
theorem State.deliver_frame (s : State) (v : Byte) :
    (s.deliver v).esc = s.esc ∧ (s.deliver v).offR = s.offR ∧ (s.deliver v).kindR = s.kindR ∧
    (s.deliver v).errCodeR = s.errCodeR ∧ (s.deliver v).errPhaseR = s.errPhaseR ∧
    (s.deliver v).errOffsetR = s.errOffsetR ∧ (s.deliver v).pins = s.pins ∧ (s.deliver v).config = s.config := by
  obtain ⟨_, h⟩ | ⟨_, h⟩ := s.deliver_cases v <;> simp [h]

/-- A delivery does not look at `esc`, `off_r` and the inputs to come. -/
theorem State.deliver_reframe (s : State) (v : Byte) (e : Esc) (o : Nat) (p : List Ports) :
    ({ s with esc := e, offR := o, pins := p }).deliver v = { s.deliver v with esc := e, offR := o, pins := p } := by
  have hs : ({ s with esc := e, offR := o, pins := p }).storeByte v = { s.storeByte v with esc := e, offR := o, pins := p } := by
    cases h : s.phase <;> simp [State.storeByte, h, State.shiftTs, State.writeLevel, State.writePayload]
  by_cases hc : s.cnt.toNat + 1 = fieldLen s.phase s.kindR
  · rw [State.deliver, hs, State.countByte_last _ (by simpa using hc), State.deliver,
      State.countByte_last _ (by simpa using hc)]
  · rw [State.deliver, hs, State.countByte_inside _ (by simpa using hc), State.deliver,
      State.countByte_inside _ (by simpa using hc)]

/-! ### The decoder, case by case of R121 -/

theorem ev_rst (p : Ports) : (p.ev.setWidth 8).toNat < 16 ∧ ((p.ev.setWidth 8).setWidth 4).getLsbD 3 = p.rst ∧
    ((p.ev.setWidth 8).setWidth 4).getLsbD 2 = p.inValid ∧ ((p.ev.setWidth 8).setWidth 4).getLsbD 1 = p.inEos ∧
    ((p.ev.setWidth 8).setWidth 4).getLsbD 0 = p.outReady := by
  obtain ⟨r, v, d, e, o⟩ := p
  cases r <;> cases v <;> cases e <;> cases o <;> simp [Ports.ev]

/-- A step without `Accept` is read as the event of its control vector. -/
theorem decode_event (c : Context) (p : Ports)
    (h : (p.rst || !p.inValid || c.outValid || c.phase.terminal) = true) :
    decode c p =
      (if p.rst then .row .reset
      else if c.outValid then (if p.outReady then .row .take else .row .wait)
      else if c.phase.terminal then .row .wait
      else if p.inEos then (if c.phase = .idle then .row .endClean else .row .endTrunc)
      else .row .wait) := by
  have hw : portWord c p = { format := .event, bits := p.ev.setWidth 8 } := by
    obtain ⟨ph, e, ov⟩ := c
    by_cases h0 : (p.rst || !p.inValid || ov) = true
    · simp [portWord, h0]
    · have ht : ph.terminal = true := by
        rw [Bool.or_eq_true] at h
        exact h.resolve_left h0
      cases ph <;> simp [Phase.terminal] at ht <;> simp [portWord, byteFormat]
  obtain ⟨hlt, h3, h2, h1, h0⟩ := ev_rst p
  rw [decode, hw, decodeWord]
  simp only [hlt, if_true, decodeEvent, h3, h2, h1, h0]
  obtain ⟨ph, e, ov⟩ := c
  cases hr : p.rst <;> cases hv : p.inValid <;> cases ov <;> cases ht : ph.terminal <;> simp_all

/-- A byte offered while `in_ready` is 1 is read in the format of the phase and the escape state. -/
theorem decode_accept (c : Context) (p : Ports) (f : RowFormat) (hr : p.rst = false) (hv : p.inValid = true)
    (ho : c.outValid = false) (hf : byteFormat c.phase c.esc = some f) :
    decode c p = match decodeByte f p.inData with
      | some i => .row i
      | none => .rejected .formatNotRead := by
  obtain ⟨ph, e, ov⟩ := c
  simp only at ho hf
  subst ho
  cases ph <;> cases e <;> simp [byteFormat] at hf <;> subst hf <;>
    simp [decode, portWord, decodeWord, byteFormat, hr, hv] <;>
    rfl

theorem decodeByte_idle (esc : Esc) (b : Byte) (f : RowFormat) (h : byteFormat .idle esc = some f) :
    decodeByte f b = some (decodeBoundary b) := by
  simp [byteFormat] at h
  simp [← h, decodeByte]

theorem decodeByte_marker (esc : Esc) (b : Byte) (f : RowFormat) (h : byteFormat .marker esc = some f) :
    decodeByte f b = some (decodeMarker b) := by
  simp [byteFormat] at h
  simp [← h, decodeByte]

theorem decodeByte_field (p : Phase) (esc : Esc) (b : Byte) (f : RowFormat) (hp : isFieldPhase p = true)
    (h : byteFormat p esc = some f) : decodeByte f b = some (decodeField esc b) := by
  cases p <;> simp [isFieldPhase] at hp <;> cases esc <;> simp [byteFormat] at h <;> simp [← h, decodeByte]

/-- The byte rows of a field phase, by the escape state and the byte (R88). -/
theorem decodeField_cases (b : Byte) :
    (b ≠ escByte ∧ decodeField .normal b = .fieldLiteral b ∧ decodeField .afterEscape b = .fieldEscBad b) ∨
    (b = escByte ∧ decodeField .normal b = .fieldEscOpen ∧ decodeField .afterEscape b = .fieldEscClose) := by
  by_cases h : b = escByte <;> simp [decodeField, escDecode, h]

end Sys2Proof.Machine
end

