-- ==== Sys2Proof/Laws/PerInstr.lean ====
section
/-! SUPPORT. Facts about every row of the table, one lemma per constructor. -/

namespace Sys2Proof.Laws

/-- The encoder writes a word of the operation's own row of the table. -/
def EncodesItsRow.Statement (i : Instr) : Prop :=
  i.wellFormed = true → (rowOf i).selects (encode i) = true

namespace EncodesItsRow

theorem lead : Statement .lead := by intro _; decide
theorem leadBad (b : Byte) : Statement (.leadBad b) := by
  intro h; simpa [Row.selects, rowOf, encode, Instr.wellFormed, escByte] using h
theorem markAc : Statement .markAc := by intro _; decide
theorem markSs : Statement .markSs := by intro _; decide
theorem markSl : Statement .markSl := by intro _; decide
theorem markId : Statement .markId := by intro _; decide
theorem markBad (b : Byte) : Statement (.markBad b) := by
  intro h
  simpa [Row.selects, rowOf, encode, Instr.wellFormed, markerAc, markerSs, markerSl, markerId, and_assoc] using h
theorem fieldLiteral (b : Byte) : Statement (.fieldLiteral b) := by
  intro h; simpa [Row.selects, rowOf, encode, Instr.wellFormed, escByte] using h
theorem fieldEscOpen : Statement .fieldEscOpen := by intro _; decide
theorem fieldEscClose : Statement .fieldEscClose := by intro _; decide
theorem fieldEscBad (b : Byte) : Statement (.fieldEscBad b) := by
  intro h; simpa [Row.selects, rowOf, encode, Instr.wellFormed, escByte] using h
theorem tsByte (v : Byte) : Statement (.tsByte v) := by intro _; simp [Row.selects, rowOf, encode]
theorem levelByte (v : Byte) : Statement (.levelByte v) := by intro _; simp [Row.selects, rowOf, encode]
theorem payloadByte (v : Byte) : Statement (.payloadByte v) := by intro _; simp [Row.selects, rowOf, encode]
theorem identByte (v : Byte) : Statement (.identByte v) := by intro _; simp [Row.selects, rowOf, encode]
theorem endClean : Statement .endClean := by intro _; decide
theorem endTrunc : Statement .endTrunc := by intro _; decide
theorem take : Statement .take := by intro _; decide
theorem wait : Statement .wait := by intro _; decide
theorem reset : Statement .reset := by intro _; decide

end EncodesItsRow

end Sys2Proof.Laws
end

