-- ==== Sys2Proof/Tests/Slice0.lean ====
section
/-! SUPPORT. The model's own tests: ill-formed terms refused, every constructor's decoding, one step of every row on the vectors
of 95_test_vectors.md, and for every statement with hypotheses a state and operands that meet them. -/

namespace Sys2Proof.Tests

open Sys2Proof Sys2Proof.Machine

/-! ### Helpers -/

/-- A register of the next state; none where there is no next state. -/
def after {α : Type} (o : Host.Outcome State Fault Refusal) (f : State → α) : Option α :=
  match o with
  | .next t => some (f t)
  | .fault _ => none
  | .refused _ => none

/-- The state after reset, but in phase `p`. -/
def inPhase (p : Phase) : State :=
  { State.reset with phase := p }

/-- The state after reset of a build with `OFFSET_W = 1`. -/
def narrow : State :=
  State.resetWith { offsetW := 1 }

/-- A field phase with `cnt` logical bytes taken, of a frame of kind `k`. -/
def inField (p : Phase) (k : Kind) (cnt : BitVec 4) : State :=
  { State.reset with phase := p, kindR := k, cnt := cnt }

/-- A frame waits for the consumer. -/
def waiting : State :=
  { State.reset with kindR := .modeAC, outValidR := true, offR := 11 }

/-- A ModeAC frame without a byte `0x1A` inside (program P3). -/
def acFrame : DecodedFrame := ⟨.modeAC, 1, 0x80, [0x12, 0x34]⟩

/-- An identity frame with one escaped byte (program P4). -/
def idBody : List Byte := [1, 2, 3, 4, 5, 6, 7, 0x1A]

/-- A raw byte offered while the consumer is not ready. -/
def byteOnly (b : Byte) : Ports :=
  { Ports.idle with inValid := true, inData := b }

/-! ### Well-formedness: the operands a row excludes are refused -/

theorem test_wf_leadBad_1A : (Instr.leadBad 0x1A).wellFormed = false := by decide

theorem test_wf_fieldLiteral_1A : (Instr.fieldLiteral 0x1A).wellFormed = false := by decide

theorem test_wf_fieldEscBad_1A : (Instr.fieldEscBad 0x1A).wellFormed = false := by decide

theorem test_wf_markBad_markers :
    ∀ b ∈ [(0x31 : Byte), 0x32, 0x33, 0xE3], (Instr.markBad b).wellFormed = false := by decide

theorem test_wf_markBad_1A : (Instr.markBad 0x1A).wellFormed = true := by decide

/-! ### Decoding: every constructor, from a word written out of the tables of 30_encoding.md -/

theorem test_decode_boundary :
    decodeWord ⟨.idle, .normal, false⟩ ⟨.boundary, 0b00011010⟩ = .row .lead ∧
    decodeWord ⟨.idle, .normal, false⟩ ⟨.boundary, 0b11111111⟩ = .row (.leadBad 0xFF) ∧
    decodeWord ⟨.idle, .normal, false⟩ ⟨.boundary, 0b00110001⟩ = .row (.leadBad 0x31) := by decide

theorem test_decode_marker :
    decodeWord ⟨.marker, .normal, false⟩ ⟨.marker, 0b00110001⟩ = .row .markAc ∧
    decodeWord ⟨.marker, .normal, false⟩ ⟨.marker, 0b00110010⟩ = .row .markSs ∧
    decodeWord ⟨.marker, .normal, false⟩ ⟨.marker, 0b00110011⟩ = .row .markSl ∧
    decodeWord ⟨.marker, .normal, false⟩ ⟨.marker, 0b11100011⟩ = .row .markId ∧
    decodeWord ⟨.marker, .normal, false⟩ ⟨.marker, 0b00110100⟩ = .row (.markBad 0x34) ∧
    decodeWord ⟨.marker, .normal, false⟩ ⟨.marker, 0b00011010⟩ = .row (.markBad 0x1A) := by decide

theorem test_decode_field :
    decodeWord ⟨.payload, .normal, false⟩ ⟨.fieldNormal, 0b00110011⟩ = .row (.fieldLiteral 0x33) ∧
    decodeWord ⟨.level, .normal, false⟩ ⟨.fieldNormal, 0b00011010⟩ = .row .fieldEscOpen ∧
    decodeWord ⟨.ts, .afterEscape, false⟩ ⟨.fieldEsc, 0b00011010⟩ = .row .fieldEscClose ∧
    decodeWord ⟨.ident, .afterEscape, false⟩ ⟨.fieldEsc, 0b00110011⟩ = .row (.fieldEscBad 0x33) := by decide

theorem test_decode_logical :
    decodeWord ⟨.ts, .normal, false⟩ ⟨.logicalByte, 0b10000011⟩ = .row (.tsByte 0x83) ∧
    decodeWord ⟨.level, .normal, false⟩ ⟨.logicalByte, 0b00011010⟩ = .row (.levelByte 0x1A) ∧
    decodeWord ⟨.payload, .normal, false⟩ ⟨.logicalByte, 0b00110100⟩ = .row (.payloadByte 0x34) ∧
    decodeWord ⟨.ident, .normal, false⟩ ⟨.logicalByte, 0b00000111⟩ = .row (.identByte 0x07) := by decide

/-- The control vector is `rst ++ in_valid ++ in_eos ++ out_ready`. -/
theorem test_decode_event :
    decodeWord ⟨.idle, .normal, false⟩ ⟨.event, 0b0011⟩ = .row .endClean ∧
    decodeWord ⟨.payload, .afterEscape, false⟩ ⟨.event, 0b0010⟩ = .row .endTrunc ∧
    decodeWord ⟨.idle, .normal, true⟩ ⟨.event, 0b0111⟩ = .row .take ∧
    decodeWord ⟨.idle, .normal, true⟩ ⟨.event, 0b0110⟩ = .row .wait ∧
    decodeWord ⟨.error, .normal, false⟩ ⟨.event, 0b0111⟩ = .row .wait ∧
    decodeWord ⟨.error, .normal, false⟩ ⟨.event, 0b1111⟩ = .row .reset := by decide

theorem test_decode_rejects :
    decodeWord ⟨.done, .normal, false⟩ ⟨.boundary, 0x1A⟩ = .rejected .formatNotRead ∧
    decodeWord ⟨.idle, .normal, true⟩ ⟨.boundary, 0x1A⟩ = .rejected .formatNotRead ∧
    decodeWord ⟨.idle, .normal, false⟩ ⟨.logicalByte, 0⟩ = .rejected .noFieldOpen ∧
    decodeWord ⟨.idle, .normal, false⟩ ⟨.event, 0x10⟩ = .rejected .eventBitsHigh ∧
    decodeWord ⟨.idle, .normal, false⟩ ⟨.event, 0x4⟩ = .rejected .byteAccepted := by decide

/-- With `in_valid` and `in_eos` both 1 the byte is taken (R41, vector F9). -/
theorem test_decode_byte_before_end :
    decode ⟨.idle, .normal, false⟩ ⟨false, true, 0x1A, true, false⟩ = .row .lead := by decide

/-- The table of 95_test_vectors.md 2.1. -/
theorem test_escDecode_table :
    (∀ b ∈ [(0x00 : Byte), 0x19, 0x1B, 0x31, 0xE3, 0xFF], escDecode .normal b = .emit .normal b) ∧
    escDecode .normal 0x1A = .hold .afterEscape ∧ escDecode .afterEscape 0x1A = .emit .normal 0x1A ∧
    ∀ b ∈ [(0x00 : Byte), 0x1B, 0x32, 0xE3, 0xFF], escDecode .afterEscape b = .bad := by decide

theorem test_bare_words :
    decodeTableWord 8 0x1A = some .lead ∧ decodeTableWord 8 0xE3 = some .markId ∧ decodeTableWord 8 0x8 = some .reset ∧
    decodeTableWord 8 0x1 = some .take ∧ decodeTableWord 16 0x1A = none := by decide

/-! ### Codes and lengths (R10, R30, R31, R34, R48, R122, R200) -/

theorem test_phase_codes :
    [Phase.idle, .marker, .ts, .level, .payload, .ident, .done, .error].map phaseCode = [0, 1, 2, 3, 4, 5, 6, 7] := by decide

theorem test_kind_codes : [Kind.unset, .modeAC, .modeSShort, .modeSLong].map kindCode = [0b00, 0b01, 0b10, 0b11] := by decide

theorem test_error_codes :
    [ErrCode.none, .unexpectedLeadByte, .unknownFrameType, .invalidEscapeSequence, .truncatedFrame].map errCodeBits =
      [0, 1, 2, 3, 4] := by decide

theorem test_esc_codes : [Esc.normal, .afterEscape].map escCode = [0, 1] := by decide

theorem test_field_lengths :
    [fieldLen .ts .modeAC, fieldLen .level .modeAC, fieldLen .payload .modeAC, fieldLen .payload .modeSShort,
      fieldLen .payload .modeSLong, fieldLen .ident .unset] = [6, 1, 2, 7, 14, 8] := by decide

theorem test_offset_width : (Config.default.offsetW : Nat) = 32 ∧ Config.default.offsets = 4294967296 := by decide

/-- The example of R90 in its wire form: program P3's frame, and program P4's identity frame. -/
theorem test_encode_frames :
    encodeFrame acFrame = [0x1A, 0x31, 0, 0, 0, 0, 0, 0x01, 0x80, 0x12, 0x34] ∧
    encodeIdent idBody = [0x1A, 0xE3, 1, 2, 3, 4, 5, 6, 7, 0x1A, 0x1A] := by decide

/-! ### One step of every row -/

theorem test_lead : after (exec .lead State.reset) (fun t => (t.phase, t.offR)) = some (.marker, 1) := by decide

/-- R133 at the default width, and at the least width R10 admits: the offset wraps. -/
theorem test_lead_offset_wraps :
    after (exec .lead { State.reset with offR := 0xFFFFFFFF }) State.offR = some 0 ∧
    after (exec .lead { narrow with offR := 1 }) State.offR = some 0 ∧ after (exec .lead narrow) State.offR = some 1 := by decide

/-- Vector S6. -/
theorem test_leadBad :
    after (step { State.reset with pins := [byteOnly 0xFF, byteOnly 0x32] })
      (fun t => (t.phase, t.errCodeR, t.errPhaseR, t.errOffsetR, t.offR)) =
      some (.error, .unexpectedLeadByte, .idle, 0, 1) := by decide

theorem test_markAc :
    after (exec .markAc { inPhase .marker with tsR := 5, levelR := 6 }) (fun t => (t.kindR, t.phase, t.tsR, t.levelR)) =
      some (.modeAC, .ts, 0, 0) := by decide

theorem test_markSs : after (exec .markSs (inPhase .marker)) (fun t => (t.kindR, t.phase)) = some (.modeSShort, .ts) := by decide

theorem test_markSl :
    after (exec .markSl { inPhase .marker with payR := Vector.replicate 14 7 }) (fun t => (t.kindR, t.payR)) =
      some (.modeSLong, Vector.replicate 14 0) := by decide

theorem test_markId_keeps_kind :
    after (exec .markId { inPhase .marker with kindR := .modeSLong, tsR := 5 }) (fun t => (t.phase, t.kindR, t.tsR)) =
      some (.ident, .modeSLong, 5) := by decide

/-- Vector F5. -/
theorem test_markBad :
    after (step { inPhase .marker with offR := 1, pins := [byteOnly 0x34] })
      (fun t => (t.phase, t.errCodeR, t.errPhaseR, t.errOffsetR, t.offR)) =
      some (.error, .unknownFrameType, .marker, 1, 2) := by decide

theorem test_fieldLiteral :
    after (exec (.fieldLiteral 0x40) (inField .ts .modeAC 0)) (fun t => (t.tsR, t.cnt, t.offR)) = some (0x40, 1, 1) := by decide

/-- R102, R106: an opening escape byte does not end a field. -/
theorem test_fieldEscOpen :
    after (exec .fieldEscOpen (inField .level .modeAC 0)) (fun t => (t.phase, t.esc, t.cnt)) =
      some (.level, .afterEscape, 0) := by decide

theorem test_fieldEscClose :
    after (exec .fieldEscClose { inField .level .modeAC 0 with esc := .afterEscape }) (fun t => (t.phase, t.esc, t.levelR)) =
      some (.payload, .normal, 0x1A) := by decide

/-- Vector E1's last step. -/
theorem test_fieldEscBad :
    after (step { inField .ts .modeSShort 1 with esc := .afterEscape, offR := 4, pins := [byteOnly 0x00] })
      (fun t => (t.errCodeR, t.errPhaseR, t.errOffsetR, t.offR, t.cnt)) = some (.invalidEscapeSequence, .ts, 4, 5, 1) := by decide

/-- The example of R151: its last byte. -/
theorem test_tsByte :
    after (exec (.tsByte 0x83) { inField .ts .modeSShort 5 with tsR := 0x00064F79A3 }) (fun t => (t.tsR, t.phase, t.cnt)) =
      some (27103175555, .level, 0) := by decide

theorem test_levelByte :
    after (exec (.levelByte 0x40) (inField .level .modeAC 0)) (fun t => (t.levelR, t.phase)) = some (0x40, .payload) := by decide

/-- The 14th byte of the longest payload stands at the low end of `out_payload`. -/
theorem test_payloadByte_last :
    after (exec (.payloadByte 0x5A) (inField .payload .modeSLong 13))
      (fun t => (t.outValidR, t.phase, t.outputs.outPayload, t.outputs.outLen)) = some (true, .idle, 0x5A, 14) := by decide

theorem test_payloadByte_first :
    after (exec (.payloadByte 0x12) (inField .payload .modeAC 0))
      (fun t => (t.outValidR, t.cnt, t.outputs.outPayload.extractLsb' 104 8)) = some (false, 1, 0x12) := by decide

theorem test_identByte_last :
    after (exec (.identByte 0xFF) (inField .ident .modeAC 7)) (fun t => (t.phase, t.cnt, t.outValidR)) =
      some (.idle, 0, false) := by decide

theorem test_identByte : after (exec (.identByte 0xFF) (inField .ident .modeAC 0)) State.cnt = some 1 := by decide

theorem test_endClean : after (exec .endClean State.reset) (fun t => (t.outputs.done, t.offR)) = some (true, 0) := by decide

/-- The last step of vectors S5 and E2. -/
theorem test_endTrunc :
    after (step { inField .ts .modeSShort 3 with esc := .afterEscape, offR := 5, pins := [offerEnd] })
      (fun t => (t.errCodeR, t.errPhaseR, t.errOffsetR, t.offR, t.esc)) = some (.truncatedFrame, .ts, 5, 5, .normal) := by decide

/-- R237 (c): a byte offered in the step that hands a frame over is not taken. -/
theorem test_take :
    after (step { waiting with pins := [offerByte 0x1A] }) (fun t => (t.outValidR, t.offR, t.phase)) =
      some (false, 11, .idle) := by decide

theorem test_wait : after (step { waiting with pins := [byteOnly 0x1A] }) id = some waiting := by decide

/-- Program P4, step 4. -/
theorem test_reset :
    after (step { inField .ts .modeSShort 2 with tsR := 6, offR := 4, pins := [{ byteOnly 0x4F with rst := true }] }) id =
      some State.reset := by decide

theorem test_row_out_of_context : exec .lead (inPhase .done) = .refused .rowOutOfContext := rfl

/-- A bare word of the table is run as the next step. -/
theorem test_withFetchWord :
    step (State.reset.withFetchWord 8 0x1A) = exec .lead (State.reset.withFetchWord 8 0x1A).advance ∧
    step (State.reset.withFetchWord 8 0x33) = exec .markSl (State.reset.withFetchWord 8 0x33).advance ∧
    step (State.reset.withFetchWord 8 0x1) = exec .take (State.reset.withFetchWord 8 0x1).advance := ⟨rfl, rfl, rfl⟩

/-! ### Witnesses: the hypotheses of each statement are met, at the ends of their ranges -/

theorem witness_LeadByteOpensFrame_BadLeadByteEntersError :
    State.reset.phase = .idle ∧ State.reset.outValidR = false := by decide

theorem witness_DataMarkersClassifyAndClear :
    ∀ x ∈ [(Instr.markAc, Kind.modeAC, 2), (Instr.markSs, Kind.modeSShort, 7), (Instr.markSl, Kind.modeSLong, 14)],
      x ∈ [(Instr.markAc, Kind.modeAC, 2), (Instr.markSs, Kind.modeSShort, 7), (Instr.markSl, Kind.modeSLong, 14)] ∧
        (inPhase .marker).phase = .marker ∧ (inPhase .marker).outValidR = false := by decide

theorem witness_IdentityMarkerOpensIdent_UnknownMarkerEntersError :
    (inPhase .marker).phase = .marker ∧ (inPhase .marker).outValidR = false := by decide

/-- The first and the last byte of every field. -/
theorem witness_LiteralByteIsDelivered :
    ∀ s ∈ [inField .ts .modeAC 0, inField .ts .modeAC 5, inField .level .modeAC 0, inField .payload .modeAC 0,
        inField .payload .modeAC 1, inField .payload .modeSShort 6, inField .payload .modeSLong 13, inField .ident .unset 0,
        inField .ident .unset 7],
      isFieldPhase s.phase = true ∧ s.outValidR = false ∧ s.esc = .normal ∧ s.cnt.toNat < fieldLen s.phase s.kindR := by decide

theorem witness_EscapeOpenHoldsTheByte :
    ∀ p ∈ [Phase.ts, .level, .payload, .ident],
      isFieldPhase (inPhase p).phase = true ∧ (inPhase p).outValidR = false ∧ (inPhase p).esc = .normal := by decide

theorem witness_EscapeCloseDeliversOne1A :
    ∀ s ∈ [inField .ts .modeAC 0, inField .ts .modeAC 5, inField .level .modeAC 0, inField .payload .modeAC 0,
        inField .payload .modeSLong 13, inField .ident .unset 7].map fun s => { s with esc := .afterEscape },
      isFieldPhase s.phase = true ∧ s.outValidR = false ∧ s.esc = .afterEscape ∧
        s.cnt.toNat < fieldLen s.phase s.kindR := by decide

theorem witness_LoneEscapeEntersError :
    ∀ s ∈ [inPhase .ts, inPhase .level, inPhase .payload, inPhase .ident].map fun s => { s with esc := .afterEscape },
      isFieldPhase s.phase = true ∧ s.outValidR = false ∧ s.esc = .afterEscape := by decide

theorem witness_TimestampByteShiftsIn :
    ∀ c ∈ [(0 : BitVec 4), 4, 5], (inField .ts .modeAC c).phase = .ts ∧ (inField .ts .modeAC c).cnt.toNat < 6 := by decide

theorem witness_LevelByteIsCaptured : (inField .level .modeAC 0).phase = .level ∧ (inField .level .modeAC 0).cnt = 0 := by decide

theorem witness_PayloadByteIsStored :
    ∀ s ∈ [inField .payload .modeAC 0, inField .payload .modeAC 1, inField .payload .modeSShort 6,
        inField .payload .modeSLong 12, inField .payload .modeSLong 13],
      s.phase = .payload ∧ s.cnt.toNat < payloadLen s.kindR := by decide

theorem witness_IdentityByteIsDiscarded :
    ∀ c ∈ [(0 : BitVec 4), 6, 7], (inField .ident .unset c).phase = .ident ∧ (inField .ident .unset c).cnt.toNat < 8 := by decide

theorem witness_EndAtBoundaryIsClean :
    ({ State.reset with pins := [offerEnd] }).ends = true ∧ waiting.outValidR = true ∧ State.reset.phase = .idle ∧
      State.reset.outValidR = false := by decide

theorem witness_EndInsideFrameIsTruncation :
    ∀ p ∈ [Phase.marker, .ts, .level, .payload, .ident],
      ({ inPhase p with pins := [offerEnd] }).ends = true ∧ (inPhase p).phase ≠ .idle ∧ (inPhase p).outValidR = false := by decide

theorem witness_TakeClearsOutValidOnly :
    waiting.outValidR = true ∧ ({ waiting with pins := [offerReady] }).sample.outReady = true ∧
      ({ waiting with pins := [offerReady] }).sample.rst = false := by decide

theorem witness_ResetStepWinsOverEverything :
    ({ waiting with pins := [{ offerByte 0x1A with rst := true }] }).sample.rst = true := by decide

theorem witness_ManyResetStepsAreOne :
    (1 + 1) ≤ ({ waiting with pins := [{ Ports.idle with rst := true }, { Ports.idle with rst := true }] }).pins.length ∧
      ∀ p ∈ ({ waiting with pins := [{ Ports.idle with rst := true }, { Ports.idle with rst := true }] }).pins.take (1 + 1),
        p.rst = true := by decide

theorem witness_StepRunsTheDecodedRow :
    ({ State.reset with pins := [byteOnly 0x1A] }).startsStep = true ∧
      decode ({ State.reset with pins := [byteOnly 0x1A] }).context ({ State.reset with pins := [byteOnly 0x1A] }).sample =
        .row .lead ∧ Instr.lead.wellFormed = true := by decide

theorem witness_UnusedEncodingStopsTheStep :
    State.reset.sample.rst = false ∧ 14 ≤ (inField .ts .modeAC 14).cnt.toNat ∧ 14 ≤ (inField .ts .modeAC 15).cnt.toNat ∧
      ({ State.reset with outValidR := true }).outValidR = true ∧ ({ State.reset with outValidR := true }).kindR = .unset := by
  decide

theorem witness_EveryInputHasAnEffect_StepIsRuleR121 :
    waiting.holdsUnused = false ∧ waiting.startsStep = true ∧ (inField .payload .modeSLong 13).startsStep = true ∧
      ({ inField .ts .modeAC 15 with pins := [{ Ports.idle with rst := true }] }).startsStep = true := by decide

theorem witness_DecodeOfEncodeIsTheRow :
    ∀ x ∈ [(Instr.lead, Phase.idle, Esc.normal, false), (.leadBad 0x1B, .idle, .normal, false), (.markAc, .marker, .normal, false),
        (.markSs, .marker, .normal, false), (.markSl, .marker, .normal, false), (.markId, .marker, .normal, false),
        (.markBad 0x1A, .marker, .normal, false), (.fieldLiteral 0xE3, .ident, .normal, false),
        (.fieldEscOpen, .payload, .normal, false), (.fieldEscClose, .level, .afterEscape, false),
        (.fieldEscBad 0x00, .ts, .afterEscape, false), (.tsByte 0xFF, .ts, .normal, false), (.levelByte 0x1A, .level, .normal, false),
        (.payloadByte 0, .payload, .normal, false), (.identByte 1, .ident, .normal, false), (.endClean, .idle, .normal, false),
        (.endTrunc, .ident, .afterEscape, false), (.take, .idle, .normal, true), (.wait, .error, .normal, false),
        (.reset, .done, .normal, true)],
      x.1.wellFormed = true ∧ x.1.appliesIn ⟨x.2.1, x.2.2.1, x.2.2.2⟩ = true := by decide

theorem witness_DecodedRowMatchesTheTable :
    decodeWord ⟨.marker, .normal, false⟩ ⟨.marker, 0x1A⟩ = .row (.markBad 0x1A) := by decide

/-- In `MARKER`, one byte of each decision, at the default width and at the least. -/
theorem witness_MarkerRowsFollowTheClassifier :
    ∀ b ∈ [(0x31 : Byte), 0x32, 0x33, 0xE3, 0x00, 0x1A, 0x30, 0x34, 0xE2, 0xE4, 0xFF],
      ∀ s ∈ [{ inPhase .marker with pins := [byteOnly b] }, { narrow with phase := .marker, pins := [byteOnly b] }],
        s.phase = .marker ∧ s.accepts = true ∧ s.sample.inData = b ∧ s.holdsUnused = false := by decide

theorem witness_ExactlyOneByteRowApplies :
    byteFormat .idle .normal = some .boundary ∧ byteFormat .marker .normal = some .marker ∧
      byteFormat .ts .normal = some .fieldNormal ∧ byteFormat .ident .afterEscape = some .fieldEsc := by decide

/-- R49 in a state of every phase, at the largest counts. -/
theorem witness_EveryStepKeepsR49 :
    ∀ s ∈ [State.reset, waiting, inPhase .marker, inField .ts .modeAC 5, inField .payload .modeSLong 13, inField .ident .unset 7,
        inPhase .done, { inPhase .error with errCodeR := .truncatedFrame }], s.inv := by decide

theorem witness_EveryStepKeepsTheOffsetWidth :
    ∀ s ∈ [{ State.reset with offR := 0xFFFFFFFF, pins := [byteOnly 0x1A] }, { narrow with offR := 1, pins := [byteOnly 0xFF] }],
      s.offsetsFit ∧ (after (step s) id).isSome = true := by decide

theorem witness_EveryStepKeepsUnusedPayloadZero :
    (inField .payload .modeAC 1).inv ∧ (inField .payload .modeAC 1).unusedPayloadZero ∧
      step { inField .payload .modeAC 1 with pins := [byteOnly 5] } =
        .next { waiting with offR := 1, payR := (Vector.replicate 14 0).set 1 5 } := by
  refine ⟨by decide, by decide, rfl⟩

/-- The whole of program P3's frame from reset, taken by the consumer, and the end of the stream. -/
def p3Steps : List Ports := streamSteps [.data acFrame] ++ [offerEnd]

theorem witness_EmittedFramesHaveZeroTail :
    after (core.run 11 { State.reset with pins := p3Steps }) (fun t : State => t.outValidR) = some true := by decide

theorem witness_AnyScheduleDeliversTheSameFrames :
    (∀ x ∈ [StreamFrame.data acFrame], x.wellFormed = true) ∧ ({ State.reset with pins := p3Steps }).inv ∧
      (∀ p ∈ p3Steps.take 13, p.rst = false) ∧
      after (core.run 13 { State.reset with pins := p3Steps }) (fun t : State => t.phase) = some .done ∧
      takenBytes 13 { State.reset with pins := p3Steps } = streamBytes [.data acFrame] := by decide

theorem witness_OffsetCountsTakenBytes :
    State.reset.sample.rst = false ∧ step State.reset = .next State.reset ∧
      ({ State.reset with pins := [byteOnly 0] }).accepts = true ∧
      (after (step { State.reset with pins := [byteOnly 0] }) id).isSome = true := ⟨rfl, rfl, rfl, rfl⟩

theorem witness_OffsetIsTheStreamPosition :
    State.reset.offR < State.reset.config.offsets ∧
      (∀ p ∈ [byteOnly 0x1A, Ports.idle].take 2, p.rst = false) ∧
      core.run 2 { State.reset with pins := [byteOnly 0x1A, Ports.idle] } = .next { inPhase .marker with offR := 1 } :=
  ⟨by decide, by decide, rfl⟩

/-- A rejected byte in each of the six parsing phases, and `End` in the other five than `IDLE`. -/
theorem witness_ErrorEntryRecordsTheCause :
    ∀ s ∈ [{ State.reset with pins := [byteOnly 0] }, { inPhase .marker with pins := [byteOnly 0] }] ++
        ([inPhase .ts, inPhase .level, inPhase .payload, inPhase .ident].map fun s =>
          { s with esc := .afterEscape, pins := [byteOnly 0] }) ++
        ([inPhase .marker, inPhase .ts, inPhase .level, inPhase .payload, inPhase .ident].map fun s =>
          { s with pins := [offerEnd] }),
      s.phase ≠ .error ∧ after (step s) State.phase = some .error := by decide

theorem witness_ErrorIsSticky :
    (inPhase .error).phase = .error ∧ (inPhase .error).holdsUnused = false ∧
      ∀ p ∈ [offerByte 0x1A, offerEnd].take 2, p.rst = false := by decide

theorem witness_OnlyResetLeavesTerminalPhases :
    ∀ p ∈ [Phase.done, .error],
      ((inPhase p).phase = .done ∨ (inPhase p).phase = .error) ∧ (inPhase p).sample.rst = false ∧
        after (step (inPhase p)) State.phase = some p := by decide

theorem witness_FrameWaitsForTheConsumer :
    waiting.inv ∧ waiting.outValidR = true ∧
      ∀ p ∈ [byteOnly 0x1A, Ports.idle].take 2, p.rst = false ∧ p.outReady = false := by decide

theorem witness_OutValidRisesWithTheLastPayloadByte :
    (inField .payload .modeAC 1).inv ∧ (inField .payload .modeAC 1).outValidR = false ∧
      after (step { inField .payload .modeAC 1 with pins := [byteOnly 5] }) State.outValidR = some true := by decide

theorem witness_FieldsEndOnTheirLastLogicalByte :
    ∀ s ∈ [inField .ts .modeAC 5, inField .level .modeAC 0, inField .payload .modeSLong 13, inField .ident .unset 7],
      s.inv ∧ isFieldPhase s.phase = true ∧
        after (step { s with pins := [byteOnly 5] }) State.phase = some (nextPhase s.phase) ∧
        nextPhase s.phase ≠ s.phase ∧ nextPhase s.phase ≠ .error := by decide

theorem witness_CapturedDataNeverSteersTheBlock :
    waiting.sameControl { waiting with tsR := 5, levelR := 6 } ∧ step waiting = .next waiting ∧
      step { waiting with tsR := 5, levelR := 6 } = .next { waiting with tsR := 5, levelR := 6 } := ⟨by decide, rfl, rfl⟩

/-- Offering the lead byte at once, and after an idle step. -/
theorem witness_OnlyEventsMatter :
    ({ State.reset with pins := [byteOnly 0x1A] }).sameRegisters { State.reset with pins := [Ports.idle, byteOnly 0x1A] } ∧
      events 1 { State.reset with pins := [byteOnly 0x1A] } = events 2 { State.reset with pins := [Ports.idle, byteOnly 0x1A] } ∧
      events 1 { State.reset with pins := [byteOnly 0x1A] } = [.accept 0x1A] ∧
      core.run 1 { State.reset with pins := [byteOnly 0x1A] } = .next { inPhase .marker with offR := 1 } ∧
      core.run 2 { State.reset with pins := [Ports.idle, byteOnly 0x1A] } = .next { inPhase .marker with offR := 1 } :=
  ⟨rfl, rfl, rfl, rfl, rfl⟩

theorem witness_SixBytesMakeTheTimestamp : (inPhase .ts).phase = .ts ∧ (inPhase .ts).cnt = 0 := by decide

theorem witness_FrameLengthBounds :
    (∀ f ∈ [acFrame, ⟨.modeSShort, 0x1A1A1A1A1A1A, 0x1A, List.replicate 7 0x1A⟩, ⟨.modeSLong, 0, 0, List.replicate 14 0⟩],
      DecodedFrame.wellFormed f = true) ∧ idBody.length = 8 := by decide

theorem witness_WireImageIsUnambiguous :
    (∀ x ∈ [StreamFrame.ident idBody, .data acFrame], x.wellFormed = true) ∧
      streamBytes [.ident idBody, .data acFrame] = streamBytes [.ident idBody, .data acFrame] := by decide

theorem witness_RoundTripOfOneFrame :
    acFrame.wellFormed = true ∧ State.reset.inv ∧ State.reset.phase = .idle ∧ State.reset.outValidR = false ∧
      offers ((encodeFrame acFrame).map byteOnly) (encodeFrame acFrame) := by decide

theorem witness_IdentityFrameLeavesNoTrace :
    idBody.length = 8 ∧ State.reset.inv ∧ State.reset.phase = .idle ∧ State.reset.outValidR = false ∧
      offers ((encodeIdent idBody).map offerByte) (encodeIdent idBody) := by decide

theorem witness_StreamDeliversItsFramesInOrder :
    (∀ x ∈ [StreamFrame.ident idBody, .data acFrame], x.wellFormed = true) ∧
      ({ State.reset with pins := streamSteps [.ident idBody, .data acFrame] ++ [offerEnd] }).inv ∧ State.reset.phase = .idle ∧
      State.reset.outValidR = false := by decide

/-- Truncated after the lead byte, and before the last byte. -/
theorem witness_TruncationIsAnErrorNeverAPartialFrame :
    ∀ k ∈ [1, 10],
      (StreamFrame.data acFrame).wellFormed = true ∧ 1 ≤ k ∧ k < (StreamFrame.data acFrame).bytes.length ∧
      ({ State.reset with
          pins := streamSteps [.ident idBody] ++ (((StreamFrame.data acFrame).bytes.take k).map offerByte ++ [offerEnd]) }).inv := by
  decide

theorem witness_BadByteAfterStreamIsPrecise :
    (0xFF : Byte) ≠ 0x1A ∧ ({ State.reset with pins := streamSteps [.data acFrame] ++ [offerByte 0xFF] }).inv ∧
      State.reset.phase = .idle ∧ State.reset.outValidR = false := by decide

end Sys2Proof.Tests
end

/-! ## Offsets and the width of the build

What a step can do to the two offset registers (R10, R33, R39): said once for every row of the table, and from it the invariant
of the widths. -/

namespace Sys2Proof.Machine

/-- A step that answers a next state performs one row of the table, and the sample is used up. -/
theorem step_eq_next_iff (s t : State) :
    step s = .next t ↔ s.startsStep = true ∧ ∃ i, s.fetch = .row i ∧ exec i s.advance = .next t := by
  by_cases hs : s.startsStep = true
  · cases hf : s.fetch <;> simp [step, hs, hf]
  · simp [step, hs]

/-- All that can happen to `off_r` and `err_offset_r` from `s` to `t`; in each case the width stays. -/
inductive OffsetWrites (s t : State) : Prop where
  /-- No byte is taken and no error entered. -/
  | kept (config : t.config = s.config) (off : t.offR = s.offR) (err : t.errOffsetR = s.errOffsetR)
  /-- A byte is taken (R133). -/
  | counted (config : t.config = s.config) (off : t.offR = s.takeByte.offR) (err : t.errOffsetR = s.errOffsetR)
  /-- An error is entered without a byte, at a truncation (R206). -/
  | recorded (config : t.config = s.config) (off : t.offR = s.offR) (err : t.errOffsetR = s.offR)
  /-- An error is entered on a taken byte (R206, R133). -/
  | recordedAndCounted (config : t.config = s.config) (off : t.offR = s.takeByte.offR) (err : t.errOffsetR = s.offR)
  /-- A reset step (R230). -/
  | cleared (config : t.config = s.config) (off : t.offR = 0) (err : t.errOffsetR = 0)

namespace OffsetWrites

theorem keeps_config {s t : State} (w : OffsetWrites s t) : t.config = s.config := by
  cases w <;> assumption

/-- Both registers stay on the bits of the width: a taken byte is counted modulo `2^OFFSET_W`, and the record is a copy of
`off_r`. -/
theorem keeps_offsetsFit {s t : State} (w : OffsetWrites s t) (hs : s.offsetsFit) : t.offsetsFit := by
  obtain ⟨hoff, herr⟩ := hs
  have htaken : s.takeByte.offR < s.config.offsets := s.takeByte_offR_lt
  have hzero : 0 < s.config.offsets := offsets_pos s.config
  rw [State.offsetsFit, w.keeps_config]
  cases w with
  | kept _ off err => exact ⟨off.trans_lt hoff, err.trans_lt herr⟩
  | counted _ off err => exact ⟨off.trans_lt htaken, err.trans_lt herr⟩
  | recorded _ off err => exact ⟨off.trans_lt hoff, err.trans_lt hoff⟩
  | recordedAndCounted _ off err => exact ⟨off.trans_lt htaken, err.trans_lt hoff⟩
  | cleared _ off err => exact ⟨off.trans_lt hzero, err.trans_lt hzero⟩

/-- The use of a sample touches neither offset register. -/
theorem of_advance {s t : State} (w : OffsetWrites s.advance t) : OffsetWrites s t := by
  cases w with
  | kept config off err => exact .kept config off err
  | counted config off err => exact .counted config off err
  | recorded config off err => exact .recorded config off err
  | recordedAndCounted config off err => exact .recordedAndCounted config off err
  | cleared config off err => exact .cleared config off err

theorem of_runRow {s after t : State} {c : Bool} (h : runRow c after = .next t) (w : OffsetWrites s after) :
    OffsetWrites s t := by
  obtain ⟨-, rfl⟩ := (runRow_eq_next_iff _ _ _).1 h
  exact w

/-- Counting a field byte is no taking of a raw byte. -/
theorem kept_countByte {s u : State} (config : u.config = s.config) (off : u.offR = s.offR)
    (err : u.errOffsetR = s.errOffsetR) : OffsetWrites s u.countByte := by
  obtain ⟨-, hoff, -, -, -, -, -, -, herr, -, hconfig⟩ := u.countByte_frame
  exact .kept (hconfig.trans config) (hoff.trans off) (herr.trans err)

/-- A delivering row counts its raw byte, whatever the field does with the logical one. -/
theorem of_deliverRow {s t : State} {c : Bool} {v : Byte} (h : deliverRow c v s = .next t) : OffsetWrites s t := by
  obtain ⟨-, -, rfl⟩ := (deliverRow_eq_next_iff _ _ _ _).1 h
  obtain ⟨-, hoff, -, -, -, herr, -, hconfig⟩ := ({ s with esc := .normal }).takeByte.deliver_frame v
  exact .counted hconfig hoff herr

end OffsetWrites

/-- What each row of the table does to the offset registers. -/
theorem exec_offsetWrites {i : Instr} {s t : State} (h : exec i s = .next t) : OffsetWrites s t := by
  cases i with
  | lead | markAc | markSs | markSl | markId | fieldEscOpen => exact .of_runRow h (.counted rfl rfl rfl)
  | leadBad | markBad | fieldEscBad => exact .of_runRow h (.recordedAndCounted rfl rfl rfl)
  | fieldLiteral | fieldEscClose => exact .of_deliverRow h
  | tsByte | levelByte | payloadByte | identByte => exact .of_runRow h (.kept_countByte rfl rfl rfl)
  | endClean | take => exact .of_runRow h (.kept rfl rfl rfl)
  | endTrunc => exact .of_runRow h (.recorded rfl rfl rfl)
  | wait => cases h; exact .kept rfl rfl rfl
  | reset => cases h; exact .cleared rfl rfl rfl

theorem step_offsetWrites {s t : State} (h : step s = .next t) : OffsetWrites s t := by
  obtain ⟨-, i, -, hexec⟩ := (step_eq_next_iff s t).1 h
  exact (exec_offsetWrites hexec).of_advance

/-- Settles O59: every row writes the offset registers in one of five ways, and each of them keeps to the width. -/
theorem everyStepKeepsTheOffsetWidth : Obligations.EveryStepKeepsTheOffsetWidth := by
  unfold Obligations.EveryStepKeepsTheOffsetWidth
  intro s t hstep
  have hwrites : OffsetWrites s t := step_offsetWrites hstep
  exact ⟨hwrites.keeps_config, hwrites.keeps_offsetsFit⟩

end Sys2Proof.Machine

/-! ## The row of a step, by the event of the step

The decoder's answer as a function of the registers that select a row and of the step's event alone (R40 to R44, R93, R121), and
what follows for a step. -/

namespace Sys2Proof.Machine

/-! ### The events of a step (R40 to R43) -/

theorem isParsingPhase_eq_not_terminal (p : Phase) : isParsingPhase p = !p.terminal := by
  cases p <;> rfl

theorem State.accepts_eq_true_iff (s : State) :
    s.accepts = true ↔ s.sample.rst = false ∧ s.inReady = true ∧ s.sample.inValid = true := by
  simp [State.accepts, and_assoc]

theorem State.ends_eq_true_iff (s : State) :
    s.ends = true ↔
      s.sample.rst = false ∧ s.inReady = true ∧ s.sample.inValid = false ∧ s.sample.inEos = true := by
  simp [State.ends, and_assoc]

theorem State.takes_eq_true_iff (s : State) :
    s.takes = true ↔ s.sample.rst = false ∧ s.outValidR = true ∧ s.sample.outReady = true := by
  simp [State.takes, and_assoc]

theorem State.inReady_eq_true_iff (s : State) :
    s.inReady = true ↔ s.phase.terminal = false ∧ s.outValidR = false := by
  simp [State.inReady, isParsingPhase_eq_not_terminal]

/-- Settles O25: `Accept` and `End` need `in_ready`, so no frame waits, and differ in `in_valid`. -/
theorem eventsExcludeEachOther : Obligations.EventsExcludeEachOther := by
  unfold Obligations.EventsExcludeEachOther
  intro s
  simp only [State.accepts_eq_true_iff, State.ends_eq_true_iff, State.takes_eq_true_iff, State.inReady_eq_true_iff]
  refine ⟨?_, ?_, ?_⟩
  · rintro ⟨⟨-, -, hvalid⟩, -, -, hinvalid, -⟩
    simp [hvalid] at hinvalid
  · rintro ⟨⟨-, ⟨-, hfree⟩, -⟩, -, hwaits, -⟩
    simp [hfree] at hwaits
  · rintro ⟨⟨-, ⟨-, hfree⟩, -⟩, -, hwaits, -⟩
    simp [hfree] at hwaits

/-- The event of a step is exactly what happens in it: a reset step, one of the three events, or none. -/
theorem State.event?_cases (s : State) :
    (s.event? = some .reset ∧ s.sample.rst = true) ∨
    (s.event? = some (.accept s.sample.inData) ∧ s.accepts = true) ∨
    (s.event? = some .finish ∧ s.ends = true) ∨
    (s.event? = some .take ∧ s.takes = true) ∨
    (s.event? = none ∧ s.sample.rst = false ∧ s.accepts = false ∧ s.ends = false ∧ s.takes = false) := by
  unfold State.event?
  cases hr : s.sample.rst <;> cases ha : s.accepts <;> cases he : s.ends <;> cases ht : s.takes <;> simp

theorem State.event?_of_accepts {s : State} (h : s.accepts = true) : s.event? = some (.accept s.sample.inData) := by
  obtain ⟨hr, -, -⟩ := s.accepts_eq_true_iff.1 h
  simp [State.event?, hr, h]

theorem State.event?_eq_take_iff (s : State) : s.event? = some .take ↔ s.takes = true := by
  obtain ⟨-, haccept, hends⟩ := eventsExcludeEachOther s
  constructor
  · intro h
    obtain ⟨h', -⟩ | ⟨h', -⟩ | ⟨h', -⟩ | ⟨-, ht⟩ | ⟨h', -⟩ := s.event?_cases
    case inr.inr.inr.inl => exact ht
    all_goals simp [h] at h'
  · intro ht
    obtain ⟨hr, -, -⟩ := s.takes_eq_true_iff.1 ht
    have ha : s.accepts = false := by simpa [ht] using haccept
    have he : s.ends = false := by simpa [ht] using hends
    simp [State.event?, hr, ha, he, ht]

theorem State.event?_eq_none_iff (s : State) :
    s.event? = none ↔ s.sample.rst = false ∧ s.accepts = false ∧ s.ends = false ∧ s.takes = false := by
  constructor
  · intro h
    obtain ⟨h', -⟩ | ⟨h', -⟩ | ⟨h', -⟩ | ⟨h', -⟩ | ⟨-, hnone⟩ := s.event?_cases
    case inr.inr.inr.inr => exact hnone
    all_goals simp [h] at h'
  · rintro ⟨hr, ha, he, ht⟩
    simp [State.event?, hr, ha, he, ht]

/-! ### The row of an event -/

/-- The formats in which a raw byte is read: the block takes it (R93, R133). -/
def readsRawByte : RowFormat → Bool
  | .boundary | .marker | .fieldNormal | .fieldEsc => true
  | .logicalByte | .event => false

/-- The byte row of a raw byte, by the phase and the escape state (R121). -/
def byteRow (p : Phase) (e : Esc) (b : Byte) : Instr :=
  match p with
  | .idle => decodeBoundary b
  | .marker => decodeMarker b
  | .ts | .level | .payload | .ident | .done | .error => decodeField e b

/-- The row of a step, by its event (R93): what the decoder reads from the ports of the step (`State.fetch_eq_eventRow`). -/
def eventRow (c : Context) : Option Event → Instr
  | some .reset => .reset
  | some (.accept b) => byteRow c.phase c.esc b
  | some .finish => if c.phase = .idle then .endClean else .endTrunc
  | some .take => .take
  | none => .wait

theorem decodeByte_eq_byteRow {p : Phase} {e : Esc} {f : RowFormat} (b : Byte) (h : byteFormat p e = some f) :
    decodeByte f b = some (byteRow p e b) := by
  cases p with
  | idle => exact decodeByte_idle e b f h
  | marker => exact decodeByte_marker e b f h
  | ts | level | payload | ident => exact decodeByte_field _ e b f rfl h
  | done | error => simp [byteFormat] at h

/-- In a parsing phase some byte format is read. -/
theorem byteFormat_of_not_terminal {p : Phase} (e : Esc) (h : p.terminal = false) : ∃ f, byteFormat p e = some f := by
  cases p with
  | idle | marker => exact ⟨_, rfl⟩
  | ts | level | payload | ident => cases e <;> exact ⟨_, rfl⟩
  | done | error => simp [Phase.terminal] at h

/-- The ports of a step are read as the row of the step's event (R93). -/
theorem State.fetch_eq_eventRow (s : State) : s.fetch = .row (eventRow s.context s.event?) := by
  by_cases ha : s.accepts = true
  · obtain ⟨hr, hready, hvalid⟩ := s.accepts_eq_true_iff.1 ha
    obtain ⟨hparsing, hfree⟩ := s.inReady_eq_true_iff.1 hready
    obtain ⟨f, hf⟩ := byteFormat_of_not_terminal s.esc hparsing
    rw [State.fetch, decode_accept s.context s.sample f hr hvalid hfree hf, decodeByte_eq_byteRow _ hf,
      s.event?_of_accepts ha]
    rfl
  · have hevent : (s.sample.rst || !s.sample.inValid || s.context.outValid || s.context.phase.terminal) = true := by
      rw [s.accepts_eq_true_iff, s.inReady_eq_true_iff] at ha
      by_contra hnot
      simp only [Bool.or_eq_true, Bool.not_eq_true', not_or, Bool.not_eq_true, Bool.not_eq_false] at hnot
      obtain ⟨⟨⟨hr, hvalid⟩, hfree⟩, hparsing⟩ := hnot
      exact ha ⟨hr, ⟨hparsing, hfree⟩, hvalid⟩
    rw [State.fetch, decode_event _ _ hevent]
    obtain ⟨he, hr⟩ | ⟨-, ha'⟩ | ⟨he, hends⟩ | ⟨he, htakes⟩ | ⟨he, hr, -, hends, htakes⟩ := s.event?_cases
    · simp [he, hr, eventRow]
    · exact absurd ha' ha
    · obtain ⟨hr, hready, -, heos⟩ := s.ends_eq_true_iff.1 hends
      obtain ⟨hparsing, hfree⟩ := s.inReady_eq_true_iff.1 hready
      simp only [he, hr, heos, hparsing, hfree, eventRow, State.context]
      by_cases hidle : s.phase = .idle <;> simp [hidle]
    · obtain ⟨hr, hwaits, hout⟩ := s.takes_eq_true_iff.1 htakes
      simp [he, hr, hwaits, hout, eventRow, State.context]
    · cases hwaits : s.outValidR with
      | true =>
        have hout : s.sample.outReady = false := by simpa [State.takes, hr, hwaits] using htakes
        simp [he, hr, hwaits, hout, eventRow, State.context]
      | false =>
        cases hterminal : s.phase.terminal with
        | true => simp [he, hr, hwaits, hterminal, eventRow, State.context]
        | false =>
          have hready : s.inReady = true := s.inReady_eq_true_iff.2 ⟨hterminal, hwaits⟩
          have hvalid : s.sample.inValid = false := by simpa [State.accepts, hr, hready] using ha
          have heos : s.sample.inEos = false := by simpa [State.ends, hr, hready, hvalid] using hends
          simp [he, hr, hwaits, hterminal, heos, eventRow, State.context]

theorem decodeBoundary_format (b : Byte) : (rowOf (decodeBoundary b)).format = .boundary := by
  rw [decodeBoundary]
  split <;> rfl

theorem decodeMarker_format (b : Byte) : (rowOf (decodeMarker b)).format = .marker := by
  rw [decodeMarker]
  split_ifs <;> rfl

theorem decodeField_format (b : Byte) :
    (rowOf (decodeField .normal b)).format = .fieldNormal ∧
      (rowOf (decodeField .afterEscape b)).format = .fieldEsc := by
  obtain ⟨-, hnormal, hescaped⟩ | ⟨-, hnormal, hescaped⟩ := decodeField_cases b <;>
    simp [hnormal, hescaped, rowOf]

/-- A byte row reads its byte in the format of the phase and the escape state. -/
theorem byteRow_format {p : Phase} {e : Esc} {f : RowFormat} (b : Byte) (h : byteFormat p e = some f) :
    (rowOf (byteRow p e b)).format = f := by
  obtain ⟨hnormal, hescaped⟩ := decodeField_format b
  cases p with
  | idle => cases h; exact decodeBoundary_format b
  | marker => cases h; exact decodeMarker_format b
  | ts | level | payload | ident =>
    cases e with
    | normal => cases h; exact hnormal
    | afterEscape => cases h; exact hescaped
  | done | error => simp [byteFormat] at h

theorem byteRow_readsRawByte (p : Phase) (e : Esc) (b : Byte) : readsRawByte (rowOf (byteRow p e b)).format = true := by
  obtain ⟨hnormal, hescaped⟩ := decodeField_format b
  cases p with
  | idle => simp [byteRow, decodeBoundary_format, readsRawByte]
  | marker => simp [byteRow, decodeMarker_format, readsRawByte]
  | ts | level | payload | ident | done | error => cases e <;> simp [byteRow, hnormal, hescaped, readsRawByte]

/-- A row is an event row unless its event is the taking of a byte. -/
theorem eventRow_format (c : Context) {e : Option Event} (h : ∀ b, e ≠ some (.accept b)) :
    (rowOf (eventRow c e)).format = .event := by
  rcases e with _ | b | _ | _ | _
  case some.accept => exact absurd rfl (h b)
  case some.finish => by_cases hidle : c.phase = .idle <;> simp [eventRow, hidle, rowOf]
  all_goals rfl

/-- The event a row of a step stands for: the table's word of a byte row is the byte (`rowEvent_eventRow`). -/
def rowEvent : Instr → Option Event
  | .reset => some .reset
  | .endClean | .endTrunc => some .finish
  | .take => some .take
  | .wait => none
  | i => some (.accept (encode i).bits)

theorem rowEvent_decodeBoundary (b : Byte) : rowEvent (decodeBoundary b) = some (.accept b) := by
  unfold decodeBoundary
  split_ifs with hlead
  · rw [hlead]; rfl
  · rfl

theorem rowEvent_decodeMarker (b : Byte) : rowEvent (decodeMarker b) = some (.accept b) := by
  unfold decodeMarker
  split_ifs with hac hss hsl hid
  · rw [hac]; rfl
  · rw [hss]; rfl
  · rw [hsl]; rfl
  · rw [hid]; rfl
  · rfl

theorem rowEvent_decodeField (e : Esc) (b : Byte) : rowEvent (decodeField e b) = some (.accept b) := by
  obtain ⟨-, hnormal, hescaped⟩ | ⟨hb, hnormal, hescaped⟩ := decodeField_cases b
  · cases e with
    | normal => rw [hnormal]; rfl
    | afterEscape => rw [hescaped]; rfl
  · cases e with
    | normal => rw [hnormal, hb]; rfl
    | afterEscape => rw [hescaped, hb]; rfl

theorem rowEvent_eventRow (c : Context) (e : Option Event) : rowEvent (eventRow c e) = e := by
  rcases e with _ | b | _ | _ | _
  case some.accept =>
    obtain ⟨p, esc, outValid⟩ := c
    cases p with
    | idle => exact rowEvent_decodeBoundary b
    | marker => exact rowEvent_decodeMarker b
    | ts | level | payload | ident | done | error => exact rowEvent_decodeField esc b
  case some.finish => by_cases hidle : c.phase = .idle <;> simp [eventRow, hidle, rowEvent]
  all_goals rfl

/-- In one context, different events have different rows. -/
theorem eventRow_injective (c : Context) : Function.Injective (eventRow c) :=
  Function.LeftInverse.injective (rowEvent_eventRow c)

theorem State.fetch_eq_eventRow_iff (s : State) (e : Option Event) :
    s.fetch = .row (eventRow s.context e) ↔ s.event? = e := by
  rw [s.fetch_eq_eventRow, Decoded.row.injEq, (eventRow_injective _).eq_iff]

/-- Settles O16: the decoder reads TAKE exactly from the event `Take`, and the row's meaning writes the one register. -/
theorem takeClearsOutValidOnly : Obligations.TakeClearsOutValidOnly := by
  unfold Obligations.TakeClearsOutValidOnly
  intro s
  have hfetch : s.fetch = .row .take ↔ s.event? = some .take := s.fetch_eq_eventRow_iff (some .take)
  constructor
  · rw [hfetch, s.event?_eq_take_iff, s.takes_eq_true_iff]
  · exact fun hwaits => runRow_of_context _ _ hwaits

/-- Settles O17: the decoder reads WAIT exactly from a step without event. -/
theorem waitChangesNothing : Obligations.WaitChangesNothing := by
  unfold Obligations.WaitChangesNothing
  intro s
  have hfetch : s.fetch = .row .wait ↔ s.event? = none := s.fetch_eq_eventRow_iff none
  constructor
  · rw [hfetch, s.event?_eq_none_iff]
  · rfl

/-- A step performs the row of its event, in the state that has used up the sample. -/
theorem step_eq_next_iff_eventRow (s t : State) :
    step s = .next t ↔ s.startsStep = true ∧ exec (eventRow s.context s.event?) s.advance = .next t := by
  simp [step_eq_next_iff, s.fetch_eq_eventRow]

end Sys2Proof.Machine

/-! ## The invariants of R49

Each row of the table keeps the invariants of R49, a step from a state that has them completes, and so does every run from
reset. -/

namespace Sys2Proof.Machine

/-- The inductive form of R49 with its parts named; `State.inv` adds to it the width of the offset registers
(`State.inv_iff`). -/
structure ControlInv (s : State) : Prop where
  emits : s.emitsAtBoundary
  rests : s.restsBetweenFields
  counts : s.countsInsideField
  payloadKind : s.payloadHasKind
  frameKind : s.frameHasKind
  error : s.errorHasCode
  record : s.recordEmptyOutsideError
  dataKind : s.phase = .ts ∨ s.phase = .level → s.kindR ≠ .unset
  cntLt : s.cnt.toNat < 14

theorem State.inv_iff (s : State) : s.inv ↔ ControlInv s ∧ s.offsetsFit := by
  constructor
  · rintro ⟨⟨emits, rests, counts, payloadKind, frameKind, error, record⟩, ⟨dataKind, cntLt⟩, hfit⟩
    exact ⟨⟨emits, rests, counts, payloadKind, frameKind, error, record, dataKind, cntLt⟩, hfit⟩
  · rintro ⟨⟨emits, rests, counts, payloadKind, frameKind, error, record, dataKind, cntLt⟩, hfit⟩
    exact ⟨⟨emits, rests, counts, payloadKind, frameKind, error, record⟩, ⟨dataKind, cntLt⟩, hfit⟩

theorem payloadLen_pos {k : Kind} (h : k ≠ .unset) : 0 < payloadLen k := by
  cases k <;> simp [payloadLen] at h ⊢

namespace ControlInv

/-! ### What the shared operations keep -/

section
variable {s : State}

theorem resetWith (c : Config) : ControlInv (State.resetWith c) := by
  constructor <;> simp [State.emitsAtBoundary, State.restsBetweenFields, State.countsInsideField, isFieldPhase]

/-- The invariants do not speak of the captured data, of `off_r`, of the build and of the samples to come. -/
theorem withData (hs : ControlInv s) (c : Config) (o : Nat) (ts : BitVec 48) (l : Byte) (pay : Vector Byte 14)
    (p : List Ports) :
    ControlInv { s with config := c, offR := o, tsR := ts, levelR := l, payR := pay, pins := p } :=
  ⟨hs.emits, hs.rests, hs.counts, hs.payloadKind, hs.frameKind, hs.error, hs.record, hs.dataKind, hs.cntLt⟩

theorem advance (hs : ControlInv s) : ControlInv s.advance :=
  hs.withData _ _ _ _ _ _

theorem takeByte (hs : ControlInv s) : ControlInv s.takeByte :=
  hs.withData _ _ _ _ _ _

theorem storeByte (hs : ControlInv s) (v : Byte) : ControlInv (s.storeByte v) := by
  obtain ⟨-, h⟩ | ⟨-, h⟩ | ⟨-, h⟩ | ⟨-, -, -, h⟩ := s.storeByte_cases v <;> rw [h]
  case inr.inr.inr => exact hs
  all_goals exact hs.withData _ _ _ _ _ _

theorem loadReset : ControlInv s.loadReset :=
  (resetWith s.config).withData _ _ _ _ _ _

/-- An error closes the escape and records one of the four kinds (R49 (f), R206). -/
theorem raise (hs : ControlInv s) (hfree : s.outValidR = false) {e : ErrCode} (he : e ≠ .none) :
    ControlInv (s.raise e) := by
  constructor <;> simp [isFieldPhase, hfree, he, hs.cntLt]

theorem raiseOnByte (hs : ControlInv s) (hfree : s.outValidR = false) {e : ErrCode} (he : e ≠ .none) :
    ControlInv (s.raiseOnByte e) :=
  (hs.raise hfree he).takeByte

/-- In `IDLE` the record is empty, no escape is open and no count (R49 (b), (g)); `MARKER` and `DONE` rest in the same way. -/
theorem leaveIdle (hs : ControlInv s) (hidle : s.phase = .idle) (hfree : s.outValidR = false) {p : Phase}
    (hp : p = .marker ∨ p = .done) : ControlInv { s with phase := p } := by
  have hrests := hs.rests (.inl hidle)
  have hrecord := hs.record (by simp [hidle])
  rcases hp with rfl | rfl <;> constructor <;> simp [isFieldPhase, hfree, hrests, hrecord]

theorem classify (hs : ControlInv s) (hmarker : s.phase = .marker) (hfree : s.outValidR = false) {b : Byte}
    (hb : kindOfCode (b.setWidth 2) ≠ .unset) : ControlInv (s.classify b) := by
  have hrecord := hs.record (by simp [hmarker])
  constructor <;> simp [State.countsInsideField, fieldLen, hfree, hrecord, hb]

theorem openIdent (hs : ControlInv s) (hmarker : s.phase = .marker) (hfree : s.outValidR = false) :
    ControlInv s.openIdent := by
  have hrecord := hs.record (by simp [hmarker])
  constructor <;> simp [State.countsInsideField, fieldLen, hfree, hrecord]

theorem takeFrame (hs : ControlInv s) : ControlInv { s with outValidR := false } :=
  ⟨by simp, hs.rests, hs.counts, hs.payloadKind, by simp, hs.error, hs.record, hs.dataKind, hs.cntLt⟩

/-- In a field phase the escape state is free (R49 (b) and (f) speak of the other phases). -/
theorem withEsc (hs : ControlInv s) (hfield : isFieldPhase s.phase = true) (e : Esc) : ControlInv { s with esc := e } := by
  refine ⟨hs.emits, ?_, hs.counts, hs.payloadKind, hs.frameKind, ?_, hs.record, hs.dataKind, hs.cntLt⟩
  · rintro (h | h | h) <;> simp [show s.phase = _ from h, isFieldPhase] at hfield
  · intro h
    simp [show s.phase = _ from h, isFieldPhase] at hfield

theorem free_of_fieldPhase (hs : ControlInv s) (hfield : isFieldPhase s.phase = true) : s.outValidR = false := by
  cases h : s.outValidR with
  | false => rfl
  | true => simp [hs.emits h, isFieldPhase] at hfield

/-- Counting a byte of a field keeps the count inside the field, or opens the next phase with the count at 0 (R123, R129). -/
theorem countByte (hs : ControlInv s) (hfield : isFieldPhase s.phase = true) (hesc : s.esc = .normal) :
    ControlInv s.countByte := by
  have hfree := hs.free_of_fieldPhase hfield
  obtain ⟨hlast, heq⟩ | ⟨hlast, heq⟩ := s.countByte_cases <;> rw [heq]
  · have hcnt := hs.cntLt
    have hin := hs.counts hfield
    have hlen := fieldLen_le s.phase s.kindR
    have hsucc := count_succ_toNat s.cnt (by omega)
    refine ⟨hs.emits, ?_, ?_, hs.payloadKind, hs.frameKind, hs.error, hs.record, hs.dataKind, ?_⟩
    · rintro (h | h | h) <;> simp [show s.phase = _ from h, isFieldPhase] at hfield
    · intro _
      simp only [hsucc]
      omega
    · simp only [hsucc]
      omega
  · have hrecord := hs.record (by rintro h; simp [h, isFieldPhase] at hfield)
    cases hp : s.phase with
    | ts =>
      have hkind := hs.dataKind (.inl hp)
      constructor <;> simp [nextPhase, fieldLen, isFieldPhase, hfree, hrecord, hkind]
    | level =>
      have hkind := hs.dataKind (.inr hp)
      constructor <;> simp [nextPhase, fieldLen, isFieldPhase, hfree, hrecord, hkind, payloadLen_pos]
    | payload =>
      have hkind := hs.payloadKind hp
      constructor <;> simp [nextPhase, isFieldPhase, hesc, hrecord, hkind]
    | ident => constructor <;> simp [nextPhase, isFieldPhase, hesc, hfree, hrecord]
    | idle | marker | done | error => simp [hp, isFieldPhase] at hfield

theorem deliver (hs : ControlInv s) (hfield : isFieldPhase s.phase = true) (hesc : s.esc = .normal) (v : Byte) :
    ControlInv (s.deliver v) :=
  (hs.storeByte v).countByte (by simpa using hfield) (by simpa using hesc)

end

end ControlInv

/-! ### Every row of a step -/

theorem State.takesIn_eq_true_iff (s : State) (p : Phase) : s.takesIn p = true ↔ s.outValidR = false ∧ s.phase = p := by
  simp [State.takesIn]

theorem State.takesField_eq_true_iff (s : State) (e : Esc) :
    s.takesField e = true ↔ s.outValidR = false ∧ isFieldPhase s.phase = true ∧ s.esc = e := by
  simp [State.takesField, and_assoc]

/-- A data marker in `MARKER` opens a frame of its kind. -/
theorem ControlInv.of_classifyRow {s t : State} {b : Byte} (hs : ControlInv s)
    (h : runRow (s.takesIn .marker) (s.classify b).takeByte = .next t) (hb : kindOfCode (b.setWidth 2) ≠ .unset) :
    ControlInv t := by
  obtain ⟨hcontext, rfl⟩ := (runRow_eq_next_iff _ _ _).1 h
  obtain ⟨hfree, hmarker⟩ := (s.takesIn_eq_true_iff _).1 hcontext
  exact (hs.classify hmarker hfree hb).takeByte

/-- A row that rejects its byte enters `ERROR`, wherever no frame waits. -/
theorem ControlInv.of_rejectRow {s t : State} {c : Bool} {e : ErrCode} (hs : ControlInv s)
    (h : runRow c (s.raiseOnByte e) = .next t) (hc : c = true → s.outValidR = false) (he : e ≠ .none) :
    ControlInv t := by
  obtain ⟨hcontext, rfl⟩ := (runRow_eq_next_iff _ _ _).1 h
  exact hs.raiseOnByte (hc hcontext) he

theorem ControlInv.of_deliverRow {s t : State} {e : Esc} {v : Byte} (hs : ControlInv s)
    (h : deliverRow (s.takesField e) v s = .next t) : ControlInv t := by
  obtain ⟨hcontext, -, rfl⟩ := (deliverRow_eq_next_iff _ _ _ _).1 h
  obtain ⟨-, hfield, -⟩ := (s.takesField_eq_true_iff _).1 hcontext
  exact ((hs.withEsc hfield .normal).takeByte).deliver hfield rfl v

/-- Every row that a step can perform keeps the invariants (R49). A logical-byte row is part of the byte row that delivers the
byte, and alone it leaves an open escape open. -/
theorem exec_keeps_controlInv {i : Instr} {s t : State} (hi : (rowOf i).format ≠ .logicalByte)
    (h : exec i s = .next t) (hs : ControlInv s) : ControlInv t := by
  have hfree_of_takesIn {p : Phase} (hc : s.takesIn p = true) : s.outValidR = false :=
    ((s.takesIn_eq_true_iff p).1 hc).1
  have hfree_of_takesField {e : Esc} (hc : s.takesField e = true) : s.outValidR = false :=
    ((s.takesField_eq_true_iff e).1 hc).1
  cases i with
  | lead =>
    obtain ⟨hcontext, rfl⟩ := (runRow_eq_next_iff _ _ _).1 h
    obtain ⟨hfree, hidle⟩ := (s.takesIn_eq_true_iff _).1 hcontext
    exact (hs.leaveIdle hidle hfree (.inl rfl)).takeByte
  | leadBad | markBad => exact hs.of_rejectRow h hfree_of_takesIn (by decide)
  | markAc | markSs | markSl => exact hs.of_classifyRow h (by decide)
  | markId =>
    obtain ⟨hcontext, rfl⟩ := (runRow_eq_next_iff _ _ _).1 h
    obtain ⟨hfree, hmarker⟩ := (s.takesIn_eq_true_iff _).1 hcontext
    exact (hs.openIdent hmarker hfree).takeByte
  | fieldLiteral | fieldEscClose => exact hs.of_deliverRow h
  | fieldEscOpen =>
    obtain ⟨hcontext, rfl⟩ := (runRow_eq_next_iff _ _ _).1 h
    obtain ⟨-, hfield, -⟩ := (s.takesField_eq_true_iff _).1 hcontext
    exact (hs.withEsc hfield .afterEscape).takeByte
  | fieldEscBad => exact hs.of_rejectRow h hfree_of_takesField (by decide)
  | tsByte | levelByte | payloadByte | identByte => exact absurd rfl hi
  | endClean =>
    obtain ⟨hcontext, rfl⟩ := (runRow_eq_next_iff _ _ _).1 h
    obtain ⟨hfree, hidle⟩ := (s.takesIn_eq_true_iff _).1 hcontext
    exact hs.leaveIdle hidle hfree (.inr rfl)
  | endTrunc =>
    obtain ⟨hcontext, rfl⟩ := (runRow_eq_next_iff _ _ _).1 h
    obtain ⟨hready, -⟩ := (Bool.and_eq_true _ _).mp hcontext
    exact hs.raise (s.inReady_eq_true_iff.1 hready).2 (by decide)
  | take =>
    obtain ⟨-, rfl⟩ := (runRow_eq_next_iff _ _ _).1 h
    exact hs.takeFrame
  | wait => cases h; exact hs
  | reset => cases h; exact .loadReset

/-- The row of an event is no logical-byte row. -/
theorem eventRow_not_logicalByte (c : Context) (e : Option Event) : (rowOf (eventRow c e)).format ≠ .logicalByte := by
  intro hlogical
  by_cases haccept : ∃ b, e = some (.accept b)
  · obtain ⟨b, rfl⟩ := haccept
    have hreads : readsRawByte (rowOf (eventRow c (some (.accept b)))).format = true := byteRow_readsRawByte _ _ b
    simp [hlogical, readsRawByte] at hreads
  · simp [eventRow_format c (by simpa using haccept)] at hlogical

theorem step_keeps_controlInv {s t : State} (h : step s = .next t) (hs : ControlInv s) : ControlInv t := by
  obtain ⟨-, hexec⟩ := (step_eq_next_iff_eventRow s t).1 h
  exact exec_keeps_controlInv (eventRow_not_logicalByte _ _) hexec hs.advance

theorem step_keeps_inv {s t : State} (h : step s = .next t) (hs : s.inv) : t.inv := by
  obtain ⟨hcontrol, hfit⟩ := s.inv_iff.1 hs
  exact t.inv_iff.2 ⟨step_keeps_controlInv h hcontrol, (step_offsetWrites h).keeps_offsetsFit hfit⟩

/-! ### Completion -/

theorem readsRawByte_of_byteFormat {p : Phase} {e : Esc} {f : RowFormat} (h : byteFormat p e = some f) :
    readsRawByte f = true := by
  cases p <;> cases e <;> cases h <;> rfl

theorem byteFormat_eq_boundary_iff (p : Phase) (e : Esc) : byteFormat p e = some .boundary ↔ p = .idle := by
  cases p <;> cases e <;> simp [byteFormat]

theorem byteFormat_eq_marker_iff (p : Phase) (e : Esc) : byteFormat p e = some .marker ↔ p = .marker := by
  cases p <;> cases e <;> simp [byteFormat]

theorem byteFormat_eq_fieldNormal_iff (p : Phase) (e : Esc) :
    byteFormat p e = some .fieldNormal ↔ isFieldPhase p = true ∧ e = .normal := by
  cases p <;> cases e <;> simp [byteFormat, isFieldPhase]

theorem byteFormat_eq_fieldEsc_iff (p : Phase) (e : Esc) :
    byteFormat p e = some .fieldEsc ↔ isFieldPhase p = true ∧ e = .afterEscape := by
  cases p <;> cases e <;> simp [byteFormat, isFieldPhase]

theorem State.takesField_of_appliesIn {s : State} {e : Esc} {f : RowFormat}
    (hf : byteFormat s.phase s.esc = some f ↔ isFieldPhase s.phase = true ∧ s.esc = e)
    (hcontext : (!s.outValidR && byteFormat s.phase s.esc == some f) = true) : s.takesField e = true := by
  obtain ⟨hfree, hformat⟩ : s.outValidR = false ∧ byteFormat s.phase s.esc = some f := by simpa using hcontext
  exact (s.takesField_eq_true_iff e).2 ⟨hfree, hf.1 hformat⟩

/-- In the context of its row (R93), with `cnt` no unused value (U12), every row of a step completes. -/
theorem exec_completes {i : Instr} {s : State} (hi : (rowOf i).format ≠ .logicalByte)
    (hcontext : i.appliesIn s.context = true) (hcnt : s.cnt.toNat < 14) : ∃ t, exec i s = .next t := by
  cases i with
  | lead | leadBad | markAc | markSs | markSl | markId | markBad | endClean =>
    exact ⟨_, runRow_of_context _ _ hcontext⟩
  | fieldLiteral =>
    have htakes := State.takesField_of_appliesIn (byteFormat_eq_fieldNormal_iff _ _) hcontext
    exact ⟨_, (deliverRow_eq_next_iff _ _ _ _).2 ⟨htakes, hcnt, rfl⟩⟩
  | fieldEscOpen =>
    exact ⟨_, runRow_of_context _ _ (State.takesField_of_appliesIn (byteFormat_eq_fieldNormal_iff _ _) hcontext)⟩
  | fieldEscClose =>
    have htakes := State.takesField_of_appliesIn (byteFormat_eq_fieldEsc_iff _ _) hcontext
    exact ⟨_, (deliverRow_eq_next_iff _ _ _ _).2 ⟨htakes, hcnt, rfl⟩⟩
  | fieldEscBad =>
    exact ⟨_, runRow_of_context _ _ (State.takesField_of_appliesIn (byteFormat_eq_fieldEsc_iff _ _) hcontext)⟩
  | tsByte | levelByte | payloadByte | identByte => exact absurd rfl hi
  | endTrunc =>
    obtain ⟨⟨hfree, hphase⟩, hparsing⟩ :
        (s.outValidR = false ∧ s.phase ≠ .idle) ∧ s.phase.terminal = false := by
      simpa [Instr.appliesIn, State.context] using hcontext
    have hready := s.inReady_eq_true_iff.2 ⟨hparsing, hfree⟩
    exact ⟨_, runRow_of_context _ _ (by simp [hready, hphase])⟩
  | take => exact ⟨_, runRow_of_context _ _ hcontext⟩
  | wait | reset => exact ⟨_, rfl⟩

/-- A row of the format in which a byte is read applies, while no frame waits (R45, R93). -/
theorem appliesIn_of_byteFormat {i : Instr} {c : Context} (hfree : c.outValid = false)
    (h : byteFormat c.phase c.esc = some (rowOf i).format) : i.appliesIn c = true := by
  cases i with
  | lead | leadBad => simp [Instr.appliesIn, hfree, (byteFormat_eq_boundary_iff _ _).1 h]
  | markAc | markSs | markSl | markId | markBad => simp [Instr.appliesIn, hfree, (byteFormat_eq_marker_iff _ _).1 h]
  | fieldLiteral | fieldEscOpen | fieldEscClose | fieldEscBad =>
    rw [Instr.appliesIn, hfree, h]
    rfl
  | tsByte | levelByte | payloadByte | identByte | endClean | endTrunc | take | wait | reset =>
    exact absurd (readsRawByte_of_byteFormat h) (by simp [rowOf, readsRawByte])

theorem byteRow_appliesIn {c : Context} (hfree : c.outValid = false) (hparsing : c.phase.terminal = false) (b : Byte) :
    (byteRow c.phase c.esc b).appliesIn c = true := by
  obtain ⟨f, hf⟩ := byteFormat_of_not_terminal c.esc hparsing
  exact appliesIn_of_byteFormat hfree (by rw [hf, byteRow_format b hf])

theorem State.eventRow_appliesIn (s : State) : (eventRow s.context s.event?).appliesIn s.context = true := by
  obtain ⟨he, hr⟩ | ⟨he, haccepts⟩ | ⟨he, hends⟩ | ⟨he, htakes⟩ | ⟨he, -⟩ := s.event?_cases <;> rw [he]
  · rfl
  · obtain ⟨-, hready, -⟩ := s.accepts_eq_true_iff.1 haccepts
    obtain ⟨hparsing, hfree⟩ := s.inReady_eq_true_iff.1 hready
    exact byteRow_appliesIn hfree hparsing _
  · obtain ⟨-, hready, -⟩ := s.ends_eq_true_iff.1 hends
    obtain ⟨hparsing, hfree⟩ := s.inReady_eq_true_iff.1 hready
    by_cases hidle : s.phase = .idle <;>
      simp [eventRow, Instr.appliesIn, State.context, hfree, hparsing, hidle]
  · obtain ⟨-, hwaits, -⟩ := s.takes_eq_true_iff.1 htakes
    exact hwaits
  · rfl

/-- A state without unused encodings (U12) takes a step, whatever the ports carry (R235). -/
theorem step_completes {s : State} (hunused : s.holdsUnused = false) : ∃ t, step s = .next t := by
  have hcnt : s.cnt.toNat < 14 := by
    simp only [State.holdsUnused, Bool.or_eq_false_iff, decide_eq_false_iff_not] at hunused
    omega
  obtain ⟨t, hexec⟩ := exec_completes (s := s.advance) (eventRow_not_logicalByte _ _) s.eventRow_appliesIn hcnt
  exact ⟨t, (step_eq_next_iff_eventRow s t).2 ⟨by simp [State.startsStep, hunused], hexec⟩⟩

theorem ControlInv.holdsUnused_eq_false {s : State} (hs : ControlInv s) : s.holdsUnused = false := by
  have hshape : s.cnt.toNat < 14 ∧ (s.outValidR = true → s.kindR ≠ .unset) := ⟨hs.cntLt, hs.frameKind⟩
  simpa [State.holdsUnused] using hshape

/-- Settles O35: no state with the invariants holds an unused encoding, so the step completes, and every row keeps them. -/
theorem everyStepKeepsR49 : Obligations.EveryStepKeepsR49 := by
  unfold Obligations.EveryStepKeepsR49
  intro s hs
  obtain ⟨t, hstep⟩ := step_completes (s.inv_iff.1 hs).1.holdsUnused_eq_false
  exact ⟨t, hstep, step_keeps_inv hstep hs⟩

/-- Settles O34: every register rests at its reset value, and the payload buffer is all zero. -/
theorem resetStateHasTheInvariants : Obligations.ResetStateHasTheInvariants := by
  unfold Obligations.ResetStateHasTheInvariants
  intro c
  have hpos := offsets_pos c
  have hzero (n : Nat) : (State.resetWith c).zeroFrom n := by
    intro j _
    simp
  exact ⟨(State.inv_iff _).2 ⟨.resetWith c, hpos, hpos⟩, fun _ => hzero _, fun _ => hzero _, fun _ => hzero _⟩

/-! ### Runs -/

theorem run_succ_eq_next_iff (n : Nat) (s t : State) :
    core.run (n + 1) s = .next t ↔ ∃ u, step s = .next u ∧ core.run n u = .next t := by
  have hcore : core.step s = step s := rfl
  cases hstep : step s <;> simp [Host.Core.run, hcore, hstep]

/-- What a step answers and keeps, a run of any length answers and keeps. -/
theorem run_invariant {P : State → Prop} (hstep : ∀ s, P s → ∃ t, step s = .next t ∧ P t) (n : Nat) :
    ∀ s, P s → ∃ t, core.run n s = .next t ∧ P t := by
  induction n with
  | zero => exact fun s hs => ⟨s, rfl, hs⟩
  | succ n ih =>
    intro s hs
    obtain ⟨u, hu, hP⟩ := hstep s hs
    obtain ⟨t, ht, hPt⟩ := ih u hP
    exact ⟨t, (run_succ_eq_next_iff n s t).2 ⟨u, hu, ht⟩, hPt⟩

/-- Settles O37: the state after reset has the inductive invariant, placed inputs do not change that, and every step keeps it. -/
theorem reachableStatesSatisfyR49 : Obligations.ReachableStatesSatisfyR49 := by
  unfold Obligations.ReachableStatesSatisfyR49
  intro c pins n
  have hreset : State.inv { State.resetWith c with pins := pins } := (resetStateHasTheInvariants c).1
  obtain ⟨t, hrun, hshape, -⟩ := run_invariant everyStepKeepsR49 n _ hreset
  exact ⟨t, hrun, hshape⟩

end Sys2Proof.Machine

/-! ## Runs and their events

The registers after a run are a function of the registers before it and of its events (R44, R62), and `off_r` counts the bytes
that were taken (R33). -/

namespace Sys2Proof.Machine

/-! ### The registers without the samples to come -/

/-- The state with no sample to come: what `State.sameRegisters` compares. -/
def State.registers (s : State) : State :=
  { s with pins := [] }

theorem State.countByte_registers (s : State) : s.registers.countByte = s.countByte.registers := by
  by_cases hlast : s.cnt.toNat + 1 = fieldLen s.phase s.kindR
  · rw [s.countByte_last hlast, s.registers.countByte_last hlast]
    rfl
  · rw [s.countByte_inside hlast, s.registers.countByte_inside hlast]
    rfl

theorem State.deliver_registers (s : State) (v : Byte) : s.registers.deliver v = (s.deliver v).registers := by
  obtain ⟨hesc, hoff, -⟩ := s.deliver_frame v
  have hreframe : s.registers.deliver v = { s.deliver v with esc := s.esc, offR := s.offR, pins := [] } :=
    s.deliver_reframe v s.esc s.offR []
  rw [hreframe, State.registers, hesc, hoff]

theorem runRow_registers {c : Bool} {after t : State} (h : runRow c after = .next t) :
    runRow c after.registers = .next t.registers := by
  obtain ⟨hc, rfl⟩ := (runRow_eq_next_iff _ _ _).1 h
  exact runRow_of_context _ _ hc

theorem runRow_countByte_registers {c : Bool} {s t : State} (h : runRow c s.countByte = .next t) :
    runRow c s.registers.countByte = .next t.registers := by
  rw [s.countByte_registers]
  exact runRow_registers h

theorem deliverRow_registers {c : Bool} {v : Byte} {s t : State} (h : deliverRow c v s = .next t) :
    deliverRow c v s.registers = .next t.registers := by
  obtain ⟨hc, hcnt, rfl⟩ := (deliverRow_eq_next_iff _ _ _ _).1 h
  exact (deliverRow_eq_next_iff _ _ _ _).2 ⟨hc, hcnt, (State.deliver_registers _ v).symm⟩

/-- A row does not look at the samples to come. -/
theorem exec_registers {i : Instr} {s t : State} (h : exec i s = .next t) :
    exec i s.registers = .next t.registers := by
  cases i with
  | fieldLiteral | fieldEscClose => exact deliverRow_registers h
  | tsByte | levelByte | payloadByte | identByte => exact runRow_countByte_registers h
  | wait | reset => cases h; rfl
  | _ => exact runRow_registers h

/-- What a step leaves in the registers depends on the registers and the event of the step. -/
theorem step_registers {s t : State} (h : step s = .next t) :
    exec (eventRow s.registers.context s.event?) s.registers = .next t.registers := by
  obtain ⟨-, hexec⟩ := (step_eq_next_iff_eventRow s t).1 h
  exact exec_registers (s := s.advance) hexec

/-! ### Runs by their events -/

theorem events_succ_of_step {s u : State} (h : step s = .next u) (n : Nat) :
    events (n + 1) s = s.event?.toList ++ events n u := by
  simp [events, h]

theorem takenBytes_succ_of_step {s u : State} (h : step s = .next u) (n : Nat) :
    takenBytes (n + 1) s = (if s.accepts then [s.sample.inData] else []) ++ takenBytes n u := by
  simp [takenBytes, h]

/-- The rows of a list of events performed one after the other, each read in the registers that the ones before it left. -/
def execEvents : List Event → State → Host.Outcome State Fault Refusal
  | [], s => .next s
  | e :: es, s =>
    match exec (eventRow s.context (some e)) s with
    | .next t => execEvents es t
    | .fault r => .fault r
    | .refused r => .refused r

theorem execEvents_cons_of_exec {e : Event} {s u : State} (h : exec (eventRow s.context (some e)) s = .next u)
    (es : List Event) : execEvents (e :: es) s = execEvents es u := by
  simp [execEvents, h]

/-- The registers after a run are those that its events leave, whatever steps it waits in between (R44). -/
theorem run_registers {n : Nat} {s t : State} (h : core.run n s = .next t) :
    execEvents (events n s) s.registers = .next t.registers := by
  induction n generalizing s with
  | zero => cases h; rfl
  | succ n ih =>
    obtain ⟨u, hstep, hrun⟩ := (run_succ_eq_next_iff n s t).1 h
    have hregisters := step_registers hstep
    rw [events_succ_of_step hstep, ← ih hrun]
    cases hevent : s.event? with
    | none =>
      rw [hevent] at hregisters
      have hsame : s.registers = u.registers := Host.Outcome.next.inj hregisters
      rw [hsame]
      rfl
    | some e =>
      rw [hevent] at hregisters
      exact execEvents_cons_of_exec hregisters _

/-- Settles O48: the registers after a run are a function of those before it and of its events. -/
theorem onlyEventsMatter : Obligations.OnlyEventsMatter := by
  unfold Obligations.OnlyEventsMatter
  intro n m s t s' t' hsame hevents hs ht
  have hstart : s.registers = t.registers := hsame
  have hend : Host.Outcome.next s'.registers = .next t'.registers :=
    calc Host.Outcome.next s'.registers = execEvents (events n s) s.registers := (run_registers hs).symm
      _ = execEvents (events m t) t.registers := by rw [hevents, hstart]
      _ = .next t'.registers := run_registers ht
  exact Host.Outcome.next.inj hend

/-! ### The raw-byte offset -/

/-- A row that reads a raw byte counts it (R133); of the other rows only RESET writes `off_r`. -/
theorem exec_offR {i : Instr} {s t : State} (h : exec i s = .next t) (hi : i ≠ .reset) :
    t.offR = if readsRawByte (rowOf i).format then s.takeByte.offR else s.offR := by
  cases i with
  | fieldLiteral | fieldEscClose =>
    obtain ⟨-, -, rfl⟩ := (deliverRow_eq_next_iff _ _ _ _).1 h
    obtain ⟨-, hoff, -⟩ := State.deliver_frame ({ s with esc := .normal }).takeByte _
    exact hoff
  | tsByte | levelByte | payloadByte | identByte =>
    obtain ⟨-, rfl⟩ := (runRow_eq_next_iff _ _ _).1 h
    obtain ⟨-, hoff, -⟩ := State.countByte_frame _
    exact hoff
  | wait => cases h; rfl
  | reset => exact absurd rfl hi
  | _ =>
    obtain ⟨-, rfl⟩ := (runRow_eq_next_iff _ _ _).1 h
    rfl

/-- Without a reset, `off_r` advances exactly in the steps that take a byte (R133). -/
theorem step_offR {s t : State} (hr : s.sample.rst = false) (h : step s = .next t) :
    t.offR = if s.accepts then s.takeByte.offR else s.offR := by
  obtain ⟨-, hexec⟩ := (step_eq_next_iff_eventRow s t).1 h
  have hreset : eventRow s.context s.event? ≠ .reset := by
    intro hrow
    have hevent : s.event? = some .reset := eventRow_injective s.context hrow
    obtain ⟨-, hr'⟩ | ⟨h', -⟩ | ⟨h', -⟩ | ⟨h', -⟩ | ⟨h', -⟩ := s.event?_cases
    case inl => simp [hr] at hr'
    all_goals simp [hevent] at h'
  rw [exec_offR hexec hreset]
  by_cases ha : s.accepts = true
  · rw [s.event?_of_accepts ha, ha]
    simp only [eventRow, byteRow_readsRawByte]
    rfl
  · have hnone : ∀ b, s.event? ≠ some (.accept b) := by
      intro b hevent
      obtain ⟨h', -⟩ | ⟨-, ha'⟩ | ⟨h', -⟩ | ⟨h', -⟩ | ⟨h', -⟩ := s.event?_cases
      case inr.inl => exact ha ha'
      all_goals simp [hevent] at h'
    simp [eventRow_format _ hnone, readsRawByte, ha]

theorem exec_pins {i : Instr} {s t : State} (h : exec i s = .next t) : t.pins = s.pins := by
  cases i with
  | fieldLiteral | fieldEscClose =>
    obtain ⟨-, -, rfl⟩ := (deliverRow_eq_next_iff _ _ _ _).1 h
    obtain ⟨-, -, -, -, -, -, hpins, -⟩ := State.deliver_frame ({ s with esc := .normal }).takeByte _
    exact hpins
  | tsByte | levelByte | payloadByte | identByte =>
    obtain ⟨-, rfl⟩ := (runRow_eq_next_iff _ _ _).1 h
    obtain ⟨-, -, -, -, -, -, -, -, -, hpins, -⟩ := State.countByte_frame _
    exact hpins
  | wait | reset => cases h; rfl
  | _ =>
    obtain ⟨-, rfl⟩ := (runRow_eq_next_iff _ _ _).1 h
    rfl

/-- A step uses up its sample, and only that (log entry 1). -/
theorem step_pins {s t : State} (h : step s = .next t) : t.pins = s.pins.tail := by
  obtain ⟨-, hexec⟩ := (step_eq_next_iff_eventRow s t).1 h
  exact exec_pins hexec

/-- The samples of a run without reset: none in the coming step, none after it. -/
theorem State.noReset_succ {s : State} {n : Nat} (h : ∀ p ∈ s.pins.take (n + 1), p.rst = false) :
    s.sample.rst = false ∧ ∀ p ∈ s.pins.tail.take n, p.rst = false := by
  cases hpins : s.pins with
  | nil => simp [State.sample, hpins, Ports.idle]
  | cons p ps => simpa [State.sample, hpins] using h

/-- Over a run without reset `off_r` counts the bytes taken, modulo `2^OFFSET_W` (R33). -/
theorem run_offR {n : Nat} {s t : State} (hfit : s.offR < s.config.offsets) (hr : ∀ p ∈ s.pins.take n, p.rst = false)
    (h : core.run n s = .next t) :
    t.config = s.config ∧ t.offR = (s.offR + (takenBytes n s).length) % s.config.offsets := by
  induction n generalizing s with
  | zero =>
    cases h
    exact ⟨rfl, (Nat.mod_eq_of_lt hfit).symm⟩
  | succ n ih =>
    obtain ⟨u, hstep, hrun⟩ := (run_succ_eq_next_iff n s t).1 h
    obtain ⟨hnow, hlater⟩ := State.noReset_succ hr
    have hconfig : u.config = s.config := (step_offsetWrites hstep).keeps_config
    have htaken : u.offR = (s.offR + (if s.accepts then 1 else 0)) % s.config.offsets := by
      rw [step_offR hnow hstep]
      split
      · rfl
      · exact (Nat.mod_eq_of_lt hfit).symm
    have hfit' : u.offR < u.config.offsets := by
      rw [htaken, hconfig]
      exact Nat.mod_lt _ (offsets_pos _)
    obtain ⟨htconfig, htoff⟩ := ih hfit' (by rwa [step_pins hstep]) hrun
    refine ⟨htconfig.trans hconfig, ?_⟩
    rw [htoff, hconfig, htaken, offset_add, takenBytes_succ_of_step hstep, List.length_append]
    split <;> rfl

/-- Settles O40: `off_r` is 0 after reset, and each step without reset counts the byte it takes. -/
theorem offsetIsTheStreamPosition : Obligations.OffsetIsTheStreamPosition := by
  unfold Obligations.OffsetIsTheStreamPosition
  refine ⟨fun c => ⟨rfl, rfl⟩, fun n s t hfit hr hrun => ?_⟩
  obtain ⟨hconfig, hoff⟩ := run_offR hfit hr hrun
  refine ⟨?_, hconfig, hoff⟩
  rw [hoff, hconfig]
  exact Nat.mod_lt _ (offsets_pos _)

end Sys2Proof.Machine

/-! ## The output ports

Each port is a function of the registers (R28, R29, R45). -/

namespace Sys2Proof.Machine

/-- The byte appended last stands at the low end. -/
theorem extract_append_byte_low {w : Nat} (x : BitVec w) (b : Byte) : (x ++ b).extractLsb' 0 8 = b := by
  rw [BitVec.extractLsb'_append_eq_of_add_le (by omega)]
  exact BitVec.extractLsb'_eq_self

/-- The bytes before it stand eight bits higher. -/
theorem extract_append_byte_high {w : Nat} (x : BitVec w) (b : Byte) (k : Nat) :
    (x ++ b).extractLsb' (k + 8) 8 = x.extractLsb' k 8 := by
  rw [BitVec.extractLsb'_append_eq_of_le (by omega), Nat.add_sub_cancel]

theorem State.outPayload_extract (s : State) (j : Fin 14) :
    s.outPayload.extractLsb' (104 - 8 * j.val) 8 = s.payR[j.val] := by
  unfold State.outPayload
  fin_cases j
  all_goals simp [extract_append_byte_low, extract_append_byte_high]

theorem State.outLen_toNat (s : State) : s.outLen.toNat = payloadLen s.kindR := by
  rw [State.outLen]
  cases s.kindR <;> rfl

/-- Settles O32: port by port from the registers, and the payload byte by byte. -/
theorem outputPortsShowTheRegisters : Obligations.OutputPortsShowTheRegisters := by
  unfold Obligations.OutputPortsShowTheRegisters
  exact fun s => ⟨s.outPayload_extract, rfl, rfl, s.outLen_toNat, rfl, rfl⟩

/-- Settles O33: the status ports name the phase, and both events that take something need `in_ready` without reset. -/
theorem statusPortsFollowThePhase : Obligations.StatusPortsFollowThePhase := by
  unfold Obligations.StatusPortsFollowThePhase
  intro s
  have hparsing : s.phase.terminal = false ↔
      s.phase ∈ [Phase.idle, Phase.marker, Phase.ts, Phase.level, Phase.payload, Phase.ident] := by
    cases s.phase <;> simp [Phase.terminal]
  refine ⟨by simp [State.outputs, State.done], by simp [State.outputs, State.errValid], rfl, rfl, rfl, rfl, ?_, ?_⟩
  · rw [← hparsing]
    exact s.inReady_eq_true_iff
  · rintro (haccepts | hends)
    · obtain ⟨hr, hready, -⟩ := s.accepts_eq_true_iff.1 haccepts
      exact ⟨hready, hr⟩
    · obtain ⟨hr, hready, -⟩ := s.ends_eq_true_iff.1 hends
      exact ⟨hready, hr⟩

end Sys2Proof.Machine

/-! ## Words and rows: the decoder is the inverse of the encoder

A word that is no event word is read as the one row that is well-formed, applies in the context and has that word
(R88, R93); an event word leaves bits free, and is read by its four control bits. -/

namespace Sys2Proof.Laws

theorem EncodesItsRow.all (i : Instr) : EncodesItsRow.Statement i :=
  Instr.casesOn (motive := EncodesItsRow.Statement) i lead leadBad markAc markSs markSl markId markBad fieldLiteral fieldEscOpen
    fieldEscClose fieldEscBad tsByte levelByte payloadByte identByte endClean endTrunc take wait reset

end Sys2Proof.Laws

namespace Sys2Proof.Machine

theorem encode_format (i : Instr) : (encode i).format = (rowOf i).format := by
  cases i <;> rfl

/-! ### The byte rows, by the format -/

theorem decodeBoundary_eq_iff (b : Byte) (i : Instr) :
    decodeBoundary b = i ↔ i.wellFormed = true ∧ encode i = ⟨.boundary, b⟩ := by
  constructor
  · rintro rfl
    by_cases hb : b = escByte
    · rw [hb]; exact ⟨rfl, rfl⟩
    · simp [decodeBoundary, hb, Instr.wellFormed, encode]
  · rintro ⟨hwf, henc⟩
    cases i with
    | lead => cases henc; rfl
    | leadBad =>
      cases henc
      have hb : b ≠ escByte := by simpa [Instr.wellFormed] using hwf
      simp [decodeBoundary, hb]
    | _ => simp [encode] at henc

theorem decodeMarker_eq_iff (b : Byte) (i : Instr) :
    decodeMarker b = i ↔ i.wellFormed = true ∧ encode i = ⟨.marker, b⟩ := by
  constructor
  · rintro rfl
    unfold decodeMarker
    split_ifs with hac hss hsl hid
    · exact ⟨rfl, by rw [hac]; rfl⟩
    · exact ⟨rfl, by rw [hss]; rfl⟩
    · exact ⟨rfl, by rw [hsl]; rfl⟩
    · exact ⟨rfl, by rw [hid]; rfl⟩
    · exact ⟨by simp [Instr.wellFormed, hac, hss, hsl, hid], rfl⟩
  · rintro ⟨hwf, henc⟩
    cases i with
    | markAc | markSs | markSl | markId => cases henc; rfl
    | markBad =>
      cases henc
      obtain ⟨⟨⟨hac, hss⟩, hsl⟩, hid⟩ :
          ((b ≠ markerAc ∧ b ≠ markerSs) ∧ b ≠ markerSl) ∧ b ≠ markerId := by simpa [Instr.wellFormed] using hwf
      simp [decodeMarker, hac, hss, hsl, hid]
    | _ => simp [encode] at henc

theorem decodeField_normal_eq_iff (b : Byte) (i : Instr) :
    decodeField .normal b = i ↔ i.wellFormed = true ∧ encode i = ⟨.fieldNormal, b⟩ := by
  constructor
  · rintro rfl
    obtain ⟨hb, hrow, -⟩ | ⟨hb, hrow, -⟩ := decodeField_cases b
    · simp [hrow, Instr.wellFormed, encode, hb]
    · rw [hrow, hb]; exact ⟨rfl, rfl⟩
  · rintro ⟨hwf, henc⟩
    cases i with
    | fieldEscOpen => cases henc; rfl
    | fieldLiteral =>
      cases henc
      have hb : b ≠ escByte := by simpa [Instr.wellFormed] using hwf
      simp [decodeField, escDecode, hb]
    | _ => simp [encode] at henc

theorem decodeField_afterEscape_eq_iff (b : Byte) (i : Instr) :
    decodeField .afterEscape b = i ↔ i.wellFormed = true ∧ encode i = ⟨.fieldEsc, b⟩ := by
  constructor
  · rintro rfl
    obtain ⟨hb, -, hrow⟩ | ⟨hb, -, hrow⟩ := decodeField_cases b
    · simp [hrow, Instr.wellFormed, encode, hb]
    · rw [hrow, hb]; exact ⟨rfl, rfl⟩
  · rintro ⟨hwf, henc⟩
    cases i with
    | fieldEscClose => cases henc; rfl
    | fieldEscBad =>
      cases henc
      have hb : b ≠ escByte := by simpa [Instr.wellFormed] using hwf
      simp [decodeField, escDecode, hb]
    | _ => simp [encode] at henc

/-- The byte row of a raw byte is the one well-formed row of the format that has the byte as its word. -/
theorem byteRow_eq_iff {p : Phase} {e : Esc} {f : RowFormat} (hf : byteFormat p e = some f) (b : Byte) (i : Instr) :
    byteRow p e b = i ↔ i.wellFormed = true ∧ encode i = ⟨f, b⟩ := by
  cases p with
  | idle => cases hf; exact decodeBoundary_eq_iff b i
  | marker => cases hf; exact decodeMarker_eq_iff b i
  | ts | level | payload | ident =>
    cases e with
    | normal => cases hf; exact decodeField_normal_eq_iff b i
    | afterEscape => cases hf; exact decodeField_afterEscape_eq_iff b i
  | done | error => simp [byteFormat] at hf

/-! ### The contexts of the rows -/

/-- A byte row applies where its format is read and no frame waits (R45, R93). -/
theorem byteFormat_of_appliesIn {i : Instr} {c : Context} (hbyte : readsRawByte (rowOf i).format = true)
    (h : i.appliesIn c = true) : c.outValid = false ∧ byteFormat c.phase c.esc = some (rowOf i).format := by
  cases i with
  | lead | leadBad =>
    obtain ⟨hfree, hphase⟩ : c.outValid = false ∧ c.phase = .idle := by simpa [Instr.appliesIn] using h
    exact ⟨hfree, (byteFormat_eq_boundary_iff _ _).2 hphase⟩
  | markAc | markSs | markSl | markId | markBad =>
    obtain ⟨hfree, hphase⟩ : c.outValid = false ∧ c.phase = .marker := by simpa [Instr.appliesIn] using h
    exact ⟨hfree, (byteFormat_eq_marker_iff _ _).2 hphase⟩
  | fieldLiteral | fieldEscOpen | fieldEscClose | fieldEscBad => simpa [Instr.appliesIn, rowOf] using h
  | tsByte | levelByte | payloadByte | identByte | endClean | endTrunc | take | wait | reset =>
    simp [rowOf, readsRawByte] at hbyte

theorem decodeLogical_eq_some_iff (c : Context) (v : Byte) (i : Instr) :
    decodeLogical c.phase v = some i ↔ i.wellFormed = true ∧ i.appliesIn c = true ∧ encode i = ⟨.logicalByte, v⟩ := by
  obtain ⟨p, e, outValid⟩ := c
  constructor
  · intro h
    cases p <;> cases h <;> exact ⟨rfl, rfl, rfl⟩
  · rintro ⟨-, happlies, henc⟩
    cases i with
    | tsByte | levelByte | payloadByte | identByte =>
      cases henc
      obtain rfl := eq_of_beq happlies
      rfl
    | _ => simp [encode] at henc

/-! ### The decoder, by the format of the word -/

/-- A byte word is read where its format is read and no frame waits, as the byte row of the byte. -/
theorem decodeWord_byte_eq_row_iff {f : RowFormat} (hbyte : readsRawByte f = true) (c : Context) (b : Byte) (i : Instr) :
    decodeWord c ⟨f, b⟩ = .row i ↔
      c.outValid = false ∧ byteFormat c.phase c.esc = some f ∧ byteRow c.phase c.esc b = i := by
  by_cases hread : c.outValid = false ∧ byteFormat c.phase c.esc = some f
  · obtain ⟨hfree, hf⟩ := hread
    cases f with
    | boundary | marker | fieldNormal | fieldEsc => simp [decodeWord, hfree, hf, decodeByte_eq_byteRow b hf]
    | logicalByte | event => simp [readsRawByte] at hbyte
  · have hreject : (c.outValid || byteFormat c.phase c.esc != some f) = true := by
      by_contra hnot
      exact hread (by simpa using hnot)
    have hnone : ¬(c.outValid = false ∧ byteFormat c.phase c.esc = some f ∧ byteRow c.phase c.esc b = i) :=
      fun ⟨hfree, hf, _⟩ => hread ⟨hfree, hf⟩
    cases f with
    | boundary | marker | fieldNormal | fieldEsc => simp only [decodeWord, hreject, if_true, hnone, reduceCtorEq]
    | logicalByte | event => simp [readsRawByte] at hbyte

theorem decodeWord_logicalByte_eq_row_iff (c : Context) (v : Byte) (i : Instr) :
    decodeWord c ⟨.logicalByte, v⟩ = .row i ↔ decodeLogical c.phase v = some i := by
  cases h : decodeLogical c.phase v <;> simp [decodeWord, h]

/-- What the decoder reads from a word that is no event word: the well-formed row that applies and has that word. -/
theorem decodeWord_eq_row_iff_encode {w : RowWord} (hw : w.format ≠ .event) (c : Context) (i : Instr) :
    decodeWord c w = .row i ↔ i.wellFormed = true ∧ i.appliesIn c = true ∧ encode i = w := by
  obtain ⟨f, b⟩ := w
  cases f with
  | boundary | marker | fieldNormal | fieldEsc =>
    rw [decodeWord_byte_eq_row_iff rfl]
    constructor
    · rintro ⟨hfree, hf, hrow⟩
      obtain ⟨hwf, henc⟩ := (byteRow_eq_iff hf b i).1 hrow
      exact ⟨hwf, appliesIn_of_byteFormat hfree (by rw [hf, ← encode_format, henc]), henc⟩
    · rintro ⟨hwf, happlies, henc⟩
      obtain ⟨hfree, hf⟩ := byteFormat_of_appliesIn (by rw [← encode_format, henc]; rfl) happlies
      rw [← encode_format, henc] at hf
      exact ⟨hfree, hf, (byteRow_eq_iff hf b i).2 ⟨hwf, henc⟩⟩
  | logicalByte => rw [decodeWord_logicalByte_eq_row_iff, decodeLogical_eq_some_iff]
  | event => exact absurd rfl hw

/-- An event word is read only where the four bits above the control vector are 0 (R93). -/
theorem decodeWord_event_eq_row_iff (c : Context) (b : Byte) (i : Instr) :
    decodeWord c ⟨.event, b⟩ = .row i ↔ ∃ ev : BitVec 4, b = ev.setWidth 8 ∧ decodeEvent c ev = .row i := by
  constructor
  · intro h
    by_cases hlt : b.toNat < 16
    · refine ⟨b.setWidth 4, by bv_omega, ?_⟩
      simpa [decodeWord, hlt] using h
    · simp [decodeWord, hlt] at h
  · rintro ⟨ev, rfl, h⟩
    have hlt : (ev.setWidth 8).toNat < 16 := by bv_omega
    have hev : (ev.setWidth 8).setWidth 4 = ev := by bv_omega
    simpa only [decodeWord, hlt, hev, if_true] using h

/-- Everything the decoder can read from a control vector `rst ++ in_valid ++ in_eos ++ out_ready`. -/
theorem decodeEvent_cases {c : Context} {ev : BitVec 4} {i : Instr} (h : decodeEvent c ev = .row i) :
    (i = .reset ∧ ev.getLsbD 3 = true) ∨
    (i = .take ∧ c.outValid = true ∧ ev.getLsbD 3 = false ∧ ev.getLsbD 0 = true) ∨
    ((i = .endClean ∧ c.phase = .idle ∨ i = .endTrunc ∧ c.phase ≠ .idle) ∧ c.outValid = false ∧ c.phase.terminal = false ∧
      ev.getLsbD 3 = false ∧ ev.getLsbD 2 = false ∧ ev.getLsbD 1 = true) ∨
    (i = .wait ∧ ev.getLsbD 3 = false) := by
  unfold decodeEvent at h
  split_ifs at h <;> cases h <;> simp_all

/-- Settles O26: outside the events the decoder is the inverse of the encoder; the event rows are read one by one. -/
theorem decodeOfEncodeIsTheRow : Obligations.DecodeOfEncodeIsTheRow := by
  unfold Obligations.DecodeOfEncodeIsTheRow
  intro i c hwf happlies
  by_cases hevent : (encode i).format = .event
  case neg => exact (decodeWord_eq_row_iff_encode hevent c i).2 ⟨hwf, happlies, rfl⟩
  cases i with
  | endClean =>
    obtain ⟨hfree, hphase⟩ : c.outValid = false ∧ c.phase = .idle := by simpa [Instr.appliesIn] using happlies
    simp [decodeWord, encode, decodeEvent, hfree, hphase, Phase.terminal]
  | endTrunc =>
    obtain ⟨⟨hfree, hphase⟩, hparsing⟩ :
        (c.outValid = false ∧ c.phase ≠ .idle) ∧ c.phase.terminal = false := by simpa [Instr.appliesIn] using happlies
    simp [decodeWord, encode, decodeEvent, hfree, hphase, hparsing]
  | take =>
    have hwaits : c.outValid = true := happlies
    simp [decodeWord, encode, decodeEvent, hwaits]
  | wait => simp [decodeWord, encode, decodeEvent]
  | reset => simp [decodeWord, encode, decodeEvent]
  | _ => simp [encode] at hevent

/-! ### The rows of the table -/

/-- The table's pattern of an event row selects the control vectors that the decoder reads as the row. -/
theorem selects_of_decodeEvent {c : Context} {ev : BitVec 4} {i : Instr} (h : decodeEvent c ev = .row i) :
    (rowOf i).selects ⟨.event, ev.setWidth 8⟩ = true ∧ i.wellFormed = true ∧ i.appliesIn c = true := by
  obtain ⟨rfl, hrst⟩ | ⟨rfl, hwaits, hrst, hready⟩ | ⟨hrow, hfree, hparsing, hrst, hvalid, heos⟩ | ⟨rfl, hrst⟩ :=
    decodeEvent_cases h
  · have hselects : ∀ ev : BitVec 4, ev.getLsbD 3 = true → (rowOf .reset).selects ⟨.event, ev.setWidth 8⟩ = true := by decide
    exact ⟨hselects ev hrst, rfl, rfl⟩
  · have hselects : ∀ ev : BitVec 4, ev.getLsbD 3 = false → ev.getLsbD 0 = true →
        (rowOf .take).selects ⟨.event, ev.setWidth 8⟩ = true := by decide
    exact ⟨hselects ev hrst hready, rfl, hwaits⟩
  · have hselects : ∀ ev : BitVec 4, ev.getLsbD 3 = false → ev.getLsbD 2 = false → ev.getLsbD 1 = true →
        (rowOf .endClean).selects ⟨.event, ev.setWidth 8⟩ = true ∧
          (rowOf .endTrunc).selects ⟨.event, ev.setWidth 8⟩ = true := by decide
    obtain ⟨hclean, htrunc⟩ := hselects ev hrst hvalid heos
    obtain ⟨rfl, hphase⟩ | ⟨rfl, hphase⟩ := hrow
    · exact ⟨hclean, rfl, by simp [Instr.appliesIn, hfree, hphase]⟩
    · exact ⟨htrunc, rfl, by simp [Instr.appliesIn, hfree, hphase, hparsing]⟩
  · have hselects : ∀ ev : BitVec 4, ev.getLsbD 3 = false → (rowOf .wait).selects ⟨.event, ev.setWidth 8⟩ = true := by decide
    exact ⟨hselects ev hrst, rfl, rfl⟩

/-- Settles O27: outside the events the word is the row's own, which its pattern selects; an event row leaves bits free. -/
theorem decodedRowMatchesTheTable : Obligations.DecodedRowMatchesTheTable := by
  unfold Obligations.DecodedRowMatchesTheTable
  intro c w i h
  by_cases hevent : w.format = .event
  · obtain ⟨f, b⟩ := w
    obtain rfl : f = .event := hevent
    obtain ⟨ev, rfl, hev⟩ := (decodeWord_event_eq_row_iff c b i).1 h
    exact selects_of_decodeEvent hev
  · obtain ⟨hwf, happlies, rfl⟩ := (decodeWord_eq_row_iff_encode hevent c i).1 h
    exact ⟨Laws.EncodesItsRow.all i hwf, hwf, happlies⟩

/-- Settles O28: a state with these registers and inputs fetches the row of its event (`State.fetch_eq_eventRow`). -/
theorem portsAreNeverRejected : Obligations.PortsAreNeverRejected := by
  unfold Obligations.PortsAreNeverRejected
  intro c p
  have hdecode : ∃ i, decode c p = .row i :=
    ⟨_, State.fetch_eq_eventRow
      { State.reset with phase := c.phase, esc := c.esc, outValidR := c.outValid, pins := [p] }⟩
  obtain ⟨i, hi⟩ := hdecode
  obtain ⟨hselects, -⟩ := decodedRowMatchesTheTable c (portWord c p) i hi
  exact ⟨i, hi, hselects⟩

/-- A row whose pattern fixes all eight bits has one word. -/
theorem Row.selects_of_fixed (m : String) (f g : RowFormat) (v b : Byte) :
    (Row.mk m f v 0xFF []).selects ⟨g, b⟩ = (g == f && b == v) := by
  have hmask : b &&& 0xFF#8 = b := BitVec.and_allOnes
  simp [Row.selects, hmask]

/-- A row whose pattern fixes no bit has every word of its format but the excluded ones. -/
theorem Row.selects_of_operand (m : String) (f g : RowFormat) (b : Byte) (excluded : List Byte) :
    (Row.mk m f 0 0 excluded).selects ⟨g, b⟩ = (g == f && !excluded.contains b) := by
  simp [Row.selects]

/-- Of the byte rows, the table's patterns select just the one that the decoder reads (R93). -/
theorem byteRows_filter_selects (f : RowFormat) (b : Byte) :
    byteRows.filter (fun r => r.selects ⟨f, b⟩) = ((decodeByte f b).map rowOf).toList := by
  simp only [byteRows, List.map, rowOf, List.filter_cons, Row.selects_of_fixed, Row.selects_of_operand]
  cases f with
  | boundary =>
    by_cases hb : b = 0x1A#8
    · subst hb; rfl
    · simp [decodeByte, decodeBoundary, escByte, hb, rowOf]
  | marker =>
    by_cases hmarker : b ∈ [0x31#8, 0x32#8, 0x33#8, 0xE3#8]
    · simp only [List.mem_cons, List.not_mem_nil, or_false] at hmarker
      obtain rfl | rfl | rfl | rfl := hmarker <;> rfl
    · obtain ⟨hac, hss, hsl, hid⟩ : b ≠ 0x31#8 ∧ b ≠ 0x32#8 ∧ b ≠ 0x33#8 ∧ b ≠ 0xE3#8 := by simpa using hmarker
      simp [decodeByte, decodeMarker, markerAc, markerSs, markerSl, markerId, hac, hss, hsl, hid, rowOf]
  | fieldNormal | fieldEsc =>
    by_cases hb : b = 0x1A#8
    · subst hb; rfl
    · simp [decodeByte, decodeField, escDecode, escByte, hb, rowOf]
  | logicalByte | event => rfl

/-- Settles O29: the byte row that applies is the one the decoder reads. -/
theorem exactlyOneByteRowApplies : Obligations.ExactlyOneByteRowApplies := by
  unfold Obligations.ExactlyOneByteRowApplies
  intro p e f b hf
  rw [byteRows_filter_selects, decodeByte_eq_byteRow b hf]
  rfl

/-- Settles O21: `step` fetches the row by `decode` and performs it in the state that has used up the sample. -/
theorem stepRunsTheDecodedRow : Obligations.StepRunsTheDecodedRow := by
  unfold Obligations.StepRunsTheDecodedRow
  intro s i hstarts hdecode _
  have hfetch : s.fetch = .row i := hdecode
  simp only [step, hstarts, hfetch, if_true]
  rfl

/-- Settles O31: the decoder evaluated on the seven words. -/
theorem writtenWordsDecode : Obligations.WrittenWordsDecode := by
  unfold Obligations.WrittenWordsDecode
  decide

end Sys2Proof.Machine

/-! ## The wire format

An escaped byte tells where it ends and a field has a known logical length, so the fields of a frame, and the frames of a stream, can be cut
off the wire one by one (R86, R87, R91). -/

namespace Sys2Proof.Machine

/-! ### Escaped bytes and fields (R86) -/

theorem escapeByte_esc : escapeByte 0x1A#8 = [0x1A#8, 0x1A#8] :=
  rfl

theorem escapeByte_of_ne {v : Byte} (h : v ≠ 0x1A#8) : escapeByte v = [v] :=
  if_neg h

theorem escapeByte_length (v : Byte) : (escapeByte v).length = 1 + [v].count 0x1A := by
  by_cases h : v = 0x1A#8
  · rw [h]; rfl
  · simp [escapeByte_of_ne h, h]

@[simp] theorem escapeField_nil : escapeField [] = [] :=
  rfl

@[simp] theorem escapeField_cons (v : Byte) (vs : List Byte) : escapeField (v :: vs) = escapeByte v ++ escapeField vs :=
  rfl

theorem escapeField_append (xs ys : List Byte) : escapeField (xs ++ ys) = escapeField xs ++ escapeField ys := by
  induction xs with
  | nil => rfl
  | cons v vs ih => simp [ih]

theorem escapeField_length (bytes : List Byte) : (escapeField bytes).length = bytes.length + bytes.count 0x1A := by
  induction bytes with
  | nil => rfl
  | cons v vs ih =>
    have hcount : (v :: vs).count 0x1A = [v].count 0x1A + vs.count 0x1A := List.count_append (l₁ := [v])
    rw [escapeField_cons, List.length_append, escapeByte_length, ih, hcount, List.length_cons]
    omega

/-- Settles O50: each byte stands for itself but for the doubled `0x1A`, and a list has at most as many of them as bytes. -/
theorem escapedFieldLength : Obligations.EscapedFieldLength := by
  unfold Obligations.EscapedFieldLength
  refine ⟨rfl, fun v hv => ?_, escapeField_append, fun bytes => ?_⟩
  · simp [escapeByte_of_ne hv]
  · have hcount : bytes.count 0x1A ≤ bytes.length := List.count_le_length
    rw [escapeField_length]
    exact ⟨rfl, by omega, by omega⟩

/-! ### Raw frame lengths (R87) -/

theorem timestampBytes_length (ts : BitVec 48) : (timestampBytes ts).length = 6 :=
  rfl

theorem DecodedFrame.payload_length {f : DecodedFrame} (h : f.wellFormed = true) :
    f.payload.length = payloadLen (kindOfFrame f.kind) :=
  eq_of_beq h

theorem encodeFrame_length {f : DecodedFrame} (h : f.wellFormed = true) :
    (encodeFrame f).length =
      2 + (6 + (timestampBytes f.timestamp).count 0x1A) + (1 + [f.signalLevel].count 0x1A) +
        (payloadLen (kindOfFrame f.kind) + f.payload.count 0x1A) := by
  simp only [encodeFrame, List.length_append, escapeField_length, timestampBytes_length, DecodedFrame.payload_length h,
    List.length_cons, List.length_nil]

/-- Every field is at most doubled on the wire. -/
theorem encodeFrame_length_bounds {f : DecodedFrame} (h : f.wellFormed = true) :
    9 + payloadLen (kindOfFrame f.kind) ≤ (encodeFrame f).length ∧
      (encodeFrame f).length ≤ 16 + 2 * payloadLen (kindOfFrame f.kind) := by
  have hts : (timestampBytes f.timestamp).count 0x1A ≤ 6 := List.count_le_length
  have hlevel : [f.signalLevel].count 0x1A ≤ 1 := List.count_le_length
  have hpayload : f.payload.count 0x1A ≤ payloadLen (kindOfFrame f.kind) :=
    List.count_le_length.trans_eq (DecodedFrame.payload_length h)
  rw [encodeFrame_length h]
  omega

theorem encodeIdent_length (body : List Byte) : (encodeIdent body).length = 2 + (body.length + body.count 0x1A) := by
  rw [encodeIdent, List.length_append, escapeField_length]
  rfl

/-- Settles O51: the lengths field by field, and `N(kind)` at 2, 7 and 14. -/
theorem frameLengthBounds : Obligations.FrameLengthBounds := by
  unfold Obligations.FrameLengthBounds
  constructor
  · intro f hf
    have hbounds := encodeFrame_length_bounds hf
    refine ⟨encodeFrame_length hf, fun hkind => ?_, fun hkind => ?_, fun hkind => ?_⟩
    all_goals
      rw [hkind] at hbounds
      exact hbounds
  · intro body hbody
    have hcount : body.count 0x1A ≤ body.length := List.count_le_length
    rw [encodeIdent_length]
    omega

/-! ### Cutting the wire image (R91) -/

/-- An escaped byte tells where it ends: what follows it cannot be read as part of it. -/
theorem escapeByte_append_inj {v w : Byte} {r r' : List Byte} (h : escapeByte v ++ r = escapeByte w ++ r') :
    v = w ∧ r = r' := by
  by_cases hv : v = 0x1A#8 <;> by_cases hw : w = 0x1A#8
  · subst hv hw
    simpa [escapeByte_esc] using h
  · subst hv
    simp [escapeByte_esc, escapeByte_of_ne hw, Ne.symm hw] at h
  · subst hw
    simp [escapeByte_esc, escapeByte_of_ne hv, hv] at h
  · simpa [escapeByte_of_ne hv, escapeByte_of_ne hw] using h

/-- A field of known logical length can be cut off the wire. -/
theorem escapeField_append_inj {xs ys r r' : List Byte} (hlen : xs.length = ys.length)
    (h : escapeField xs ++ r = escapeField ys ++ r') : xs = ys ∧ r = r' := by
  induction xs generalizing ys with
  | nil =>
    obtain rfl := List.length_eq_zero_iff.1 hlen.symm
    exact ⟨rfl, h⟩
  | cons v vs ih =>
    cases ys with
    | nil => simp at hlen
    | cons w ws =>
      simp only [escapeField_cons, List.append_assoc] at h
      obtain ⟨rfl, hrest⟩ := escapeByte_append_inj h
      obtain ⟨rfl, hr⟩ := ih (Nat.succ.inj hlen) hrest
      exact ⟨rfl, hr⟩

/-- The marker of a frame (R83). -/
def StreamFrame.marker : StreamFrame → Byte
  | .data f => frameMarker f.kind
  | .ident _ => 0xE3

/-- The logical bytes of a frame after its marker, field after field (R85). -/
def StreamFrame.logicalBytes : StreamFrame → List Byte
  | .data f => timestampBytes f.timestamp ++ ([f.signalLevel] ++ f.payload)
  | .ident body => body

theorem StreamFrame.bytes_eq (x : StreamFrame) : x.bytes = 0x1A :: x.marker :: escapeField x.logicalBytes := by
  cases x with
  | data f => simp [bytes, encodeFrame, marker, logicalBytes, escapeField_append]
  | ident body => rfl

theorem frameMarker_injective : Function.Injective frameMarker := by
  intro k k' h
  cases k <;> cases k' <;> simp [frameMarker] at h ⊢

theorem frameMarker_ne_ident (k : FrameKind) : frameMarker k ≠ 0xE3 := by
  cases k <;> decide

theorem timestampBytes_injective : Function.Injective timestampBytes := by
  intro a b h
  simp only [timestampBytes, List.cons.injEq, and_true] at h
  simp only [BitVec.toNat_eq, BitVec.extractLsb'_toNat, Nat.shiftRight_eq_div_pow] at h ⊢
  omega

/-- The marker fixes the number of logical bytes (R85). -/
theorem StreamFrame.logicalBytes_length_eq {x y : StreamFrame} (hx : x.wellFormed = true) (hy : y.wellFormed = true)
    (hmarker : x.marker = y.marker) : x.logicalBytes.length = y.logicalBytes.length := by
  cases x with
  | data f =>
    cases y with
    | data g =>
      have hkind : f.kind = g.kind := frameMarker_injective hmarker
      simp [logicalBytes, timestampBytes_length, DecodedFrame.payload_length hx, DecodedFrame.payload_length hy, hkind]
    | ident => exact absurd hmarker (frameMarker_ne_ident _)
  | ident =>
    cases y with
    | data => exact absurd hmarker.symm (frameMarker_ne_ident _)
    | ident => exact (eq_of_beq hx).trans (eq_of_beq hy).symm

/-- A frame is determined by its marker and its logical bytes. -/
theorem StreamFrame.eq_of_marker_of_logicalBytes {x y : StreamFrame} (hmarker : x.marker = y.marker)
    (hbytes : x.logicalBytes = y.logicalBytes) : x = y := by
  cases x with
  | data f =>
    cases y with
    | data g =>
      obtain ⟨hts, hrest⟩ := List.append_inj hbytes rfl
      obtain ⟨hlevel, hpayload⟩ := List.cons.inj hrest
      obtain ⟨k, ts, level, payload⟩ := f
      obtain ⟨k', ts', level', payload'⟩ := g
      obtain rfl : k = k' := frameMarker_injective hmarker
      obtain rfl : ts = ts' := timestampBytes_injective hts
      obtain rfl : level = level' := hlevel
      obtain rfl : payload = payload' := hpayload
      rfl
    | ident => exact absurd hmarker (frameMarker_ne_ident _)
  | ident =>
    cases y with
    | data => exact absurd hmarker.symm (frameMarker_ne_ident _)
    | ident => exact congrArg _ hbytes

/-- A frame can be cut off the wire. -/
theorem StreamFrame.bytes_append_inj {x y : StreamFrame} {r r' : List Byte} (hx : x.wellFormed = true)
    (hy : y.wellFormed = true) (h : x.bytes ++ r = y.bytes ++ r') : x = y ∧ r = r' := by
  simp only [bytes_eq, List.cons_append, List.cons.injEq, true_and] at h
  obtain ⟨hmarker, hrest⟩ := h
  obtain ⟨hbytes, hr⟩ := escapeField_append_inj (logicalBytes_length_eq hx hy hmarker) hrest
  exact ⟨eq_of_marker_of_logicalBytes hmarker hbytes, hr⟩

/-- Settles O52: the first frames of two streams with one wire image are the same frame, and the rest by induction. -/
theorem wireImageIsUnambiguous : Obligations.WireImageIsUnambiguous := by
  unfold Obligations.WireImageIsUnambiguous
  intro xs
  induction xs with
  | nil =>
    rintro (_ | ⟨y, ys⟩) - - h
    · rfl
    · simp [streamBytes, StreamFrame.bytes_eq] at h
  | cons x xs ih =>
    rintro (_ | ⟨y, ys⟩) hxs hys h
    · simp [streamBytes, StreamFrame.bytes_eq] at h
    · obtain ⟨hx, htail⟩ := List.forall_mem_cons.1 hxs
      obtain ⟨hy, htail'⟩ := List.forall_mem_cons.1 hys
      obtain ⟨rfl, hrest⟩ := StreamFrame.bytes_append_inj hx hy h
      rw [ih ys htail htail' hrest]

end Sys2Proof.Machine

/-! ## The byte rows of a field

What FIELD_LITERAL, FIELD_ESC_OPEN, FIELD_ESC_CLOSE and FIELD_ESC_BAD do (R101 to R104), and from it everything a step in a field
phase can do (R106, R107, R129). -/

namespace Sys2Proof.Machine

/-! ### A delivered byte and its logical-byte row (R123) -/

/-- Inside a field, the logical-byte row of the phase performs the delivery. -/
theorem exec_logicalRow_eq_deliver {s : State} (hfield : isFieldPhase s.phase = true)
    (hopen : s.cnt.toNat < fieldLen s.phase s.kindR) (v : Byte) :
    ∃ i, decodeLogical s.phase v = some i ∧ exec i s = .next (s.deliver v) := by
  cases hp : s.phase with
  | ts | level | payload | ident =>
    rw [hp] at hopen
    refine ⟨_, rfl, ?_⟩
    rw [State.deliver, State.storeByte, hp]
    exact runRow_of_context _ _ (by simp [State.fieldOpen, hp, hopen])
  | idle | marker | done | error => simp [hp, isFieldPhase] at hfield

/-- A delivering byte row does what the logical-byte row of the phase does once the raw byte is taken (R101, R103). -/
theorem deliverRow_eq_logicalRow {s : State} {c : Bool} (hcontext : c = true) (hfield : isFieldPhase s.phase = true)
    (hopen : s.cnt.toNat < fieldLen s.phase s.kindR) (v : Byte) :
    ∃ i t, decodeLogical s.phase v = some i ∧ deliverRow c v s = .next t ∧
      exec i ({ s with esc := .normal }).takeByte = .next t := by
  have hcnt : s.cnt.toNat < 14 := hopen.trans_le (fieldLen_le _ _)
  obtain ⟨i, hrow, hexec⟩ := exec_logicalRow_eq_deliver (s := ({ s with esc := .normal }).takeByte) hfield hopen v
  exact ⟨i, _, hrow, (deliverRow_eq_next_iff _ _ _ _).2 ⟨hcontext, hcnt, rfl⟩, hexec⟩

/-! ### The four rows -/

/-- Settles O6: the row's context holds, and the delivery is the logical-byte row's. -/
theorem literalByteIsDelivered : Obligations.LiteralByteIsDelivered := by
  unfold Obligations.LiteralByteIsDelivered
  intro s b hfield hfree hesc hopen
  exact deliverRow_eq_logicalRow ((s.takesField_eq_true_iff _).2 ⟨hfree, hfield, hesc⟩) hfield hopen b

/-- Settles O7: the row's context holds, and the row writes `esc` and `off_r`. -/
theorem escapeOpenHoldsTheByte : Obligations.EscapeOpenHoldsTheByte := by
  unfold Obligations.EscapeOpenHoldsTheByte
  intro s hfield hfree hesc
  exact runRow_of_context _ _ ((s.takesField_eq_true_iff _).2 ⟨hfree, hfield, hesc⟩)

/-- Settles O8: as for a literal byte, in the other escape state and with `0x1A` for the byte. -/
theorem escapeCloseDeliversOne1A : Obligations.EscapeCloseDeliversOne1A := by
  unfold Obligations.EscapeCloseDeliversOne1A
  intro s hfield hfree hesc hopen
  exact deliverRow_eq_logicalRow ((s.takesField_eq_true_iff _).2 ⟨hfree, hfield, hesc⟩) hfield hopen escByte

/-- Settles O9: the row's context holds, and error entry records the phase and the offset before the byte. -/
theorem loneEscapeEntersError : Obligations.LoneEscapeEntersError := by
  unfold Obligations.LoneEscapeEntersError
  intro s b hfield hfree hesc
  exact runRow_of_context _ _ ((s.takesField_eq_true_iff _).2 ⟨hfree, hfield, hesc⟩)

/-! ### Everything a step in a field phase can do -/

theorem byteRow_of_fieldPhase {p : Phase} (hfield : isFieldPhase p = true) (e : Esc) (b : Byte) :
    byteRow p e b = decodeField e b := by
  cases p with
  | ts | level | payload | ident => rfl
  | idle | marker | done | error => simp [isFieldPhase] at hfield

/-- A byte taken in a field is delivered, opens an escape, or is the error of a lone escape (R101 to R104). The delivered byte is
the raw one in both rows that deliver: the second byte of a pair is `0x1A` itself. -/
theorem exec_decodeField_cases {s t : State} {b : Byte} (h : exec (decodeField s.esc b) s = .next t) :
    ((b = escByte ↔ s.esc = .afterEscape) ∧ t = ({ s with esc := .normal }).takeByte.deliver b) ∨
    (b = escByte ∧ s.esc = .normal ∧ t = ({ s with esc := .afterEscape }).takeByte) ∨
    (b ≠ escByte ∧ s.esc = .afterEscape ∧ t = s.raiseOnByte .invalidEscapeSequence) := by
  obtain ⟨hb, hnormal, hescaped⟩ | ⟨rfl, hnormal, hescaped⟩ := decodeField_cases b
  · cases hesc : s.esc with
    | normal =>
      rw [hesc, hnormal] at h
      obtain ⟨-, -, ht⟩ := (deliverRow_eq_next_iff _ _ _ _).1 h
      exact .inl ⟨by simp [hb], ht⟩
    | afterEscape =>
      rw [hesc, hescaped] at h
      obtain ⟨-, ht⟩ := (runRow_eq_next_iff _ _ _).1 h
      exact .inr (.inr ⟨hb, rfl, ht⟩)
  · cases hesc : s.esc with
    | normal =>
      rw [hesc, hnormal] at h
      obtain ⟨-, ht⟩ := (runRow_eq_next_iff _ _ _).1 h
      exact .inr (.inl ⟨rfl, rfl, ht⟩)
    | afterEscape =>
      rw [hesc, hescaped] at h
      obtain ⟨-, -, ht⟩ := (deliverRow_eq_next_iff _ _ _ _).1 h
      exact .inl ⟨by simp, ht⟩

/-- All that a step without reset can do in a field phase while no frame waits. -/
inductive FieldStep (s t : State) : Prop where
  /-- A byte is taken and delivered: a literal, or the second byte of an escape pair (R101, R103). -/
  | delivered (accepts : s.accepts = true) (closes : s.sample.inData = escByte ↔ s.esc = .afterEscape)
      (after : t = ({ s.advance with esc := .normal }).takeByte.deliver s.sample.inData)
  /-- A byte is taken and opens an escape (R102). -/
  | held (accepts : s.accepts = true) (opens : s.sample.inData = escByte) (esc : s.esc = .normal)
      (after : t = ({ s.advance with esc := .afterEscape }).takeByte)
  /-- A byte is taken that closes no escape (R104). -/
  | rejected (accepts : s.accepts = true) (lone : s.sample.inData ≠ escByte) (esc : s.esc = .afterEscape)
      (after : t = s.advance.raiseOnByte .invalidEscapeSequence)
  /-- The stream ends inside the frame (R132). -/
  | truncated (ends : s.ends = true) (after : t = s.advance.raise .truncatedFrame)
  /-- Nothing happens (R44). -/
  | waited (event : s.event? = none) (after : t = s.advance)

theorem step_fieldStep {s t : State} (hfield : isFieldPhase s.phase = true) (hfree : s.outValidR = false)
    (hr : s.sample.rst = false) (h : step s = .next t) : FieldStep s t := by
  obtain ⟨-, hexec⟩ := (step_eq_next_iff_eventRow s t).1 h
  obtain ⟨-, hr'⟩ | ⟨he, haccepts⟩ | ⟨he, hends⟩ | ⟨-, htakes⟩ | ⟨he, -⟩ := s.event?_cases
  · simp [hr] at hr'
  · have hrow : eventRow s.context s.event? = decodeField s.advance.esc s.sample.inData := by
      rw [he]
      exact byteRow_of_fieldPhase hfield _ _
    rw [hrow] at hexec
    obtain ⟨hcloses, ht⟩ | ⟨hopens, hesc, ht⟩ | ⟨hlone, hesc, ht⟩ := exec_decodeField_cases hexec
    · exact .delivered haccepts hcloses ht
    · exact .held haccepts hopens hesc ht
    · exact .rejected haccepts hlone hesc ht
  · have hrow : eventRow s.context s.event? = .endTrunc := by
      rw [he]
      exact if_neg (by intro hidle; simp [show s.phase = _ from hidle, isFieldPhase] at hfield)
    rw [hrow] at hexec
    obtain ⟨-, ht⟩ := (runRow_eq_next_iff _ _ _).1 hexec
    exact .truncated hends ht
  · obtain ⟨-, hwaits, -⟩ := s.takes_eq_true_iff.1 htakes
    simp [hfree] at hwaits
  · rw [he] at hexec
    exact .waited he (Host.Outcome.next.inj hexec).symm

/-- A delivery that changes the phase is that of the field's last byte (R123, R129). -/
theorem State.deliver_of_phase_ne {s : State} {v : Byte} (h : (s.deliver v).phase ≠ s.phase) :
    s.cnt.toNat + 1 = fieldLen s.phase s.kindR ∧ (s.deliver v).phase = nextPhase s.phase ∧ (s.deliver v).cnt = 0 := by
  obtain ⟨-, heq⟩ | ⟨hlast, heq⟩ := s.deliver_cases v
  · simp [heq] at h
  · exact ⟨hlast, by rw [heq], by rw [heq]⟩

/-- Settles O46: of all that a step can do in a field, only a delivery changes the phase other than to `ERROR`, and only that of
the field's last byte; an opened escape leaves the phase as it is. -/
theorem fieldsEndOnTheirLastLogicalByte : Obligations.FieldsEndOnTheirLastLogicalByte := by
  unfold Obligations.FieldsEndOnTheirLastLogicalByte
  intro s t hs hfield hr hstep hphase herror
  have hfree : s.outValidR = false := (s.inv_iff.1 hs).1.free_of_fieldPhase hfield
  cases step_fieldStep hfield hfree hr hstep with
  | delivered haccepts hcloses ht =>
    subst ht
    obtain ⟨hlast, hnext, hcnt⟩ := State.deliver_of_phase_ne hphase
    obtain ⟨hesc, -⟩ := ({ s.advance with esc := .normal }).takeByte.deliver_frame s.sample.inData
    exact ⟨haccepts, hlast, hnext, hesc, hcnt, hcloses⟩
  | held _ _ _ ht => exact absurd (congrArg State.phase ht) hphase
  | rejected _ _ _ ht => exact absurd (congrArg State.phase ht) herror
  | truncated _ ht => exact absurd (congrArg State.phase ht) herror
  | waited _ ht => exact absurd (congrArg State.phase ht) hphase

end Sys2Proof.Machine

/-! ## The arms of the frame-boundary state machine

One rule per arm (R124 to R128, R130 to R132), and from them the whole step as rule R121 writes it. -/

namespace Sys2Proof.Machine

/-! ### A byte taken in `IDLE` or in `MARKER` -/

/-- Settles O1: the row's context holds, and the row writes `phase` and `off_r`. -/
theorem leadByteOpensFrame : Obligations.LeadByteOpensFrame := by
  unfold Obligations.LeadByteOpensFrame
  intro s hidle hfree
  exact runRow_of_context _ _ ((s.takesIn_eq_true_iff _).2 ⟨hfree, hidle⟩)

/-- A byte row that rejects its byte outside the fields records the phase it was rejected in and the offset before it (R206). -/
theorem rejectRow_of_takesIn {s : State} {p : Phase} (hphase : s.phase = p) (hfree : s.outValidR = false) (e : ErrCode) :
    runRow (s.takesIn p) (s.raiseOnByte e) =
      .next { s with
        phase := .error, esc := .normal, offR := (s.offR + 1) % s.config.offsets
        errCodeR := e, errPhaseR := p, errOffsetR := s.offR } := by
  subst hphase
  exact runRow_of_context _ _ ((s.takesIn_eq_true_iff _).2 ⟨hfree, rfl⟩)

/-- Settles O2: LEAD_BAD is a rejecting row of `IDLE`. -/
theorem badLeadByteEntersError : Obligations.BadLeadByteEntersError := by
  unfold Obligations.BadLeadByteEntersError
  intro s _ hidle hfree
  exact rejectRow_of_takesIn hidle hfree _

/-- Settles O5: MARK_BAD is a rejecting row of `MARKER`. -/
theorem unknownMarkerEntersError : Obligations.UnknownMarkerEntersError := by
  unfold Obligations.UnknownMarkerEntersError
  intro s _ hmarker hfree
  exact rejectRow_of_takesIn hmarker hfree _

/-- Settles O3: each data marker's row classifies its own marker byte, whose two low bits are the code of the kind. -/
theorem dataMarkersClassifyAndClear : Obligations.DataMarkersClassifyAndClear := by
  unfold Obligations.DataMarkersClassifyAndClear
  intro s i k n hrow hmarker hfree
  have hcontext : s.takesIn .marker = true := (s.takesIn_eq_true_iff _).2 ⟨hfree, hmarker⟩
  simp only [List.mem_cons, Prod.mk.injEq, List.not_mem_nil, or_false] at hrow
  obtain ⟨rfl, rfl, rfl⟩ | ⟨rfl, rfl, rfl⟩ | ⟨rfl, rfl, rfl⟩ := hrow
  all_goals exact ⟨rfl, by decide, runRow_of_context _ _ hcontext⟩

/-- Settles O4: the row's context holds, and the row opens the identity body and counts the byte. -/
theorem identityMarkerOpensIdent : Obligations.IdentityMarkerOpensIdent := by
  unfold Obligations.IdentityMarkerOpensIdent
  intro s hmarker hfree
  exact runRow_of_context _ _ ((s.takesIn_eq_true_iff _).2 ⟨hfree, hmarker⟩)

/-! ### A byte of the identity body -/

/-- Settles O13: the row only counts (R130), and the count is the field's last at 7 (R122). -/
theorem identityByteIsDiscarded : Obligations.IdentityByteIsDiscarded := by
  unfold Obligations.IdentityByteIsDiscarded
  intro s v hident hopen
  have hexec : exec (.identByte v) s = .next s.countByte :=
    runRow_of_context _ _ (by simp [State.fieldOpen, hident, fieldLen, hopen])
  have hlast : s.cnt.toNat + 1 = fieldLen s.phase s.kindR ↔ s.cnt = 7 := by
    rw [hident, fieldLen, BitVec.toNat_eq]
    simp
  rw [hexec]
  by_cases hseven : s.cnt = 7
  · rw [if_pos hseven, s.countByte_last (hlast.2 hseven)]
    simp [hident, nextPhase]
  · rw [if_neg hseven, s.countByte_inside (mt hlast.1 hseven)]

/-! ### The end of the stream -/

theorem State.event?_eq_finish_iff (s : State) : s.event? = some .finish ↔ s.ends = true := by
  obtain ⟨haccept, -, -⟩ := eventsExcludeEachOther s
  constructor
  · intro h
    obtain ⟨h', -⟩ | ⟨h', -⟩ | ⟨-, hends⟩ | ⟨h', -⟩ | ⟨h', -⟩ := s.event?_cases
    case inr.inr.inl => exact hends
    all_goals simp [h] at h'
  · intro hends
    obtain ⟨hr, -⟩ := s.ends_eq_true_iff.1 hends
    have ha : s.accepts = false := by simpa [hends] using haccept
    simp [State.event?, hr, ha, hends]

/-- The row of `End` tells `IDLE` from the other phases (R131, R132). -/
theorem State.fetch_eq_endRow_iff (s : State) {i : Instr} (hi : rowEvent i = some .finish) :
    s.fetch = .row i ↔ s.ends = true ∧ (if s.phase = .idle then Instr.endClean else .endTrunc) = i := by
  rw [← s.event?_eq_finish_iff, s.fetch_eq_eventRow, Decoded.row.injEq]
  constructor
  · intro hrow
    have hevent : s.event? = some .finish := by rw [← hi, ← hrow, rowEvent_eventRow]
    exact ⟨hevent, by rw [← hrow, hevent]; rfl⟩
  · rintro ⟨hevent, hrow⟩
    rw [hevent, ← hrow]
    rfl

/-- Settles O14: `End` needs `in_ready`, so no frame waits, and its row in `IDLE` writes the phase alone. -/
theorem endAtBoundaryIsClean : Obligations.EndAtBoundaryIsClean := by
  unfold Obligations.EndAtBoundaryIsClean
  intro s
  refine ⟨?_, fun hwaits => ?_, fun hidle hfree => ?_⟩
  · rw [s.fetch_eq_endRow_iff rfl]
    simp
  · simp [State.ends, State.inReady, hwaits]
  · exact ⟨_, runRow_of_context _ _ ((s.takesIn_eq_true_iff _).2 ⟨hfree, hidle⟩), rfl, rfl, rfl⟩

/-- Settles O15: in every parsing phase but `IDLE` the row's context holds, and error entry records phase and offset. -/
theorem endInsideFrameIsTruncation : Obligations.EndInsideFrameIsTruncation := by
  unfold Obligations.EndInsideFrameIsTruncation
  intro s
  refine ⟨?_, fun hphase hfree => runRow_of_context _ _ ?_⟩
  · rw [s.fetch_eq_endRow_iff rfl]
    simp
  · simp only [List.mem_cons, List.not_mem_nil, or_false] at hphase
    obtain h | h | h | h | h := hphase <;> simp [State.inReady, isParsingPhase, h, hfree]

/-! ### The offset and the terminal phases -/

/-- Settles O39: a row that reads a raw byte counts it, and a byte is read exactly where one is accepted. -/
theorem offsetCountsTakenBytes : Obligations.OffsetCountsTakenBytes := by
  unfold Obligations.OffsetCountsTakenBytes
  intro s t hr hstep
  exact step_offR hr hstep

/-- Settles O43: `in_ready` is 0 there, so the step's event is `Take` or none, and neither row writes the phase. -/
theorem onlyResetLeavesTerminalPhases : Obligations.OnlyResetLeavesTerminalPhases := by
  unfold Obligations.OnlyResetLeavesTerminalPhases
  intro s t hphase hr hstep
  have hready : s.inReady = false := by rcases hphase with h | h <;> simp [State.inReady, isParsingPhase, h]
  have haccepts : s.accepts = false := by simp [State.accepts, hready]
  have hends : s.ends = false := by simp [State.ends, hready]
  refine ⟨?_, hready, haccepts, hends⟩
  obtain ⟨-, hexec⟩ := (step_eq_next_iff_eventRow s t).1 hstep
  obtain ⟨-, hr'⟩ | ⟨-, ha'⟩ | ⟨-, he'⟩ | ⟨he, -⟩ | ⟨he, -⟩ := s.event?_cases
  · simp [hr] at hr'
  · simp [haccepts] at ha'
  · simp [hends] at he'
  · rw [he] at hexec
    obtain ⟨-, rfl⟩ := (runRow_eq_next_iff _ _ _).1 hexec
    rfl
  · rw [he] at hexec
    cases hexec
    rfl

/-! ### The whole step (R121) -/

theorem acceptByte_of_idle {s : State} (hidle : s.phase = .idle) (b : Byte) :
    acceptByte s b =
      if b = escByte then ({ s with phase := .marker }).takeByte else s.raiseOnByte .unexpectedLeadByte := by
  simp only [acceptByte, hidle]
  rfl

theorem acceptByte_of_marker {s : State} (hmarker : s.phase = .marker) (b : Byte) :
    acceptByte s b =
      if b = markerAc ∨ b = markerSs ∨ b = markerSl then (s.classify b).takeByte
      else if b = markerId then s.openIdent.takeByte
      else s.raiseOnByte .unknownFrameType := by
  simp only [acceptByte, hmarker]
  rfl

/-- In `IDLE` the decoder separates the lead byte from all others (R124, R125). -/
theorem exec_decodeBoundary_eq_acceptByte {s : State} (hidle : s.phase = .idle) (hfree : s.outValidR = false) (b : Byte) :
    exec (decodeBoundary b) s = .next (acceptByte s b) := by
  have hcontext : s.takesIn .idle = true := (s.takesIn_eq_true_iff _).2 ⟨hfree, hidle⟩
  rw [acceptByte_of_idle hidle, decodeBoundary]
  split_ifs with hlead
  all_goals exact runRow_of_context _ _ hcontext

/-- In `MARKER` the decoder separates the five answers of the classifier (R126 to R128). -/
theorem exec_decodeMarker_eq_acceptByte {s : State} (hmarker : s.phase = .marker) (hfree : s.outValidR = false) (b : Byte) :
    exec (decodeMarker b) s = .next (acceptByte s b) := by
  have hcontext : s.takesIn .marker = true := (s.takesIn_eq_true_iff _).2 ⟨hfree, hmarker⟩
  rw [acceptByte_of_marker hmarker, decodeMarker]
  by_cases hac : b = markerAc
  · simp only [hac, true_or, if_true]
    exact runRow_of_context _ _ hcontext
  by_cases hss : b = markerSs
  · simp only [hss, true_or, or_true, if_true]
    exact runRow_of_context _ _ hcontext
  by_cases hsl : b = markerSl
  · simp only [hsl, or_true, if_true]
    exact runRow_of_context _ _ hcontext
  simp only [hac, hss, hsl, or_self, if_false]
  split_ifs with hid
  all_goals exact runRow_of_context _ _ hcontext

/-- In a field phase a byte is what the escape decoder answers (R88, R100). -/
theorem acceptByte_of_fieldPhase {s : State} (hfield : isFieldPhase s.phase = true) (b : Byte) :
    acceptByte s b =
      match escDecode s.esc b with
      | .hold e => ({ s with esc := e }).takeByte
      | .emit e v => ({ s with esc := e }).takeByte.deliver v
      | .bad => s.raiseOnByte .invalidEscapeSequence := by
  cases hp : s.phase with
  | ts | level | payload | ident =>
    simp only [acceptByte, hp]
    rfl
  | idle | marker | done | error => simp [hp, isFieldPhase] at hfield

/-- In a field phase the decoder separates the four answers of the escape decoder (R101 to R104). -/
theorem exec_decodeField_eq_acceptByte {s : State} (hfield : isFieldPhase s.phase = true) (hfree : s.outValidR = false)
    (hcnt : s.cnt.toNat < 14) (b : Byte) : exec (decodeField s.esc b) s = .next (acceptByte s b) := by
  have hcontext : s.takesField s.esc = true := (s.takesField_eq_true_iff _).2 ⟨hfree, hfield, rfl⟩
  rw [acceptByte_of_fieldPhase hfield]
  obtain ⟨hb, hnormal, hescaped⟩ | ⟨hb, hnormal, hescaped⟩ := decodeField_cases b
  · cases hesc : s.esc <;> rw [hesc] at hcontext
    · simp only [hnormal, escDecode, if_neg hb]
      exact (deliverRow_eq_next_iff _ _ _ _).2 ⟨hcontext, hcnt, rfl⟩
    · simp only [hescaped, escDecode, if_neg hb]
      exact runRow_of_context _ _ hcontext
  · cases hesc : s.esc <;> rw [hesc] at hcontext
    · simp only [hnormal, escDecode, if_pos hb]
      exact runRow_of_context _ _ hcontext
    · simp only [hescaped, escDecode, if_pos hb]
      exact (deliverRow_eq_next_iff _ _ _ _).2 ⟨hcontext, hcnt, rfl⟩

/-- The byte row of an accepted byte does what R121 does with the byte. -/
theorem exec_byteRow_eq_acceptByte {s : State} (hready : s.inReady = true) (hcnt : s.cnt.toNat < 14) (b : Byte) :
    exec (byteRow s.phase s.esc b) s = .next (acceptByte s b) := by
  obtain ⟨hparsing, hfree⟩ := s.inReady_eq_true_iff.1 hready
  cases hp : s.phase with
  | idle => exact exec_decodeBoundary_eq_acceptByte hp hfree b
  | marker => exact exec_decodeMarker_eq_acceptByte hp hfree b
  | ts | level | payload | ident => exact exec_decodeField_eq_acceptByte (by rw [hp]; rfl) hfree hcnt b
  | done | error => simp [hp, Phase.terminal] at hparsing

theorem cnt_lt_of_holdsUnused {s : State} (h : s.holdsUnused = false) : s.cnt.toNat < 14 := by
  simp only [State.holdsUnused, Bool.or_eq_false_iff, decide_eq_false_iff_not] at h
  omega

theorem terminal_eq_true_iff (p : Phase) : p.terminal = true ↔ p = .done ∨ p = .error := by
  cases p <;> simp [Phase.terminal]

/-- The event of a step, by the conditions of R121 in their order. -/
theorem State.event?_eq (s : State) :
    s.event? =
      if s.sample.rst then some .reset
      else if s.outValidR then if s.sample.outReady then some .take else none
      else if s.phase.terminal then none
      else if s.sample.inValid then some (.accept s.sample.inData)
      else if s.sample.inEos then some .finish
      else none := by
  simp only [State.event?, State.accepts, State.ends, State.takes, State.inReady, isParsingPhase_eq_not_terminal]
  by_cases hr : s.sample.rst = true
  · simp [hr]
  by_cases hwaits : s.outValidR = true
  · simp [hr, hwaits]
  by_cases hterminal : s.phase.terminal = true
  · simp [hr, hwaits, hterminal]
  by_cases hvalid : s.sample.inValid = true <;> simp [hr, hwaits, hterminal, hvalid]

/-- The row of `End` does what R121 does at the end of the stream. -/
theorem exec_endRow {s : State} (hready : s.inReady = true) :
    exec (if s.phase = .idle then .endClean else .endTrunc) s =
      .next (if s.phase = .idle then { s with phase := .done } else s.raise .truncatedFrame) := by
  obtain ⟨-, hfree⟩ := s.inReady_eq_true_iff.1 hready
  split_ifs with hidle
  · exact runRow_of_context _ _ ((s.takesIn_eq_true_iff _).2 ⟨hfree, hidle⟩)
  · exact runRow_of_context _ _ (by simp [hready, hidle])

/-- Settles O24: the conditions of R121 give the event of the step, and the event's row does what the arm of R121 writes. -/
theorem stepIsRuleR121 : Obligations.StepIsRuleR121 := by
  unfold Obligations.StepIsRuleR121
  intro s hstarts
  refine (step_eq_next_iff_eventRow _ _).2 ⟨hstarts, ?_⟩
  change exec _ s.advance = .next (stepRule s.advance s.sample)
  simp only [s.event?_eq, stepRule, ← terminal_eq_true_iff, State.advance_outValidR, State.advance_phase]
  by_cases hr : s.sample.rst = true
  · simp only [if_pos hr]
    rfl
  have hcnt : s.cnt.toNat < 14 := cnt_lt_of_holdsUnused (by simpa [State.startsStep, hr] using hstarts)
  simp only [if_neg hr]
  by_cases hwaits : s.outValidR = true
  · simp only [if_pos hwaits]
    split_ifs
    · exact runRow_of_context _ _ hwaits
    · rfl
  simp only [if_neg hwaits]
  by_cases hterminal : s.phase.terminal = true
  · simp only [if_pos hterminal]
    rfl
  have hready : s.advance.inReady = true :=
    s.inReady_eq_true_iff.2 ⟨Bool.eq_false_of_not_eq_true hterminal, Bool.eq_false_of_not_eq_true hwaits⟩
  simp only [if_neg hterminal]
  by_cases hvalid : s.sample.inValid = true
  · simp only [if_pos hvalid]
    exact exec_byteRow_eq_acceptByte hready hcnt _
  simp only [if_neg hvalid]
  by_cases heos : s.sample.inEos = true
  · simp only [if_pos heos]
    exact exec_endRow hready
  · simp only [if_neg heos]
    rfl

end Sys2Proof.Machine

/-! ## Frames on the wire

What the block does with raw bytes offered one after the other (`RunsTo`): the wire bytes of a field deliver its logical bytes, each
once and in order (R86, R101 to R103). -/

namespace Sys2Proof.Machine

/-! ### Runs with what they take and deliver -/

/-- `n` steps lead from `s` to `t`; the block takes the raw bytes `bs` in them, and the consumer the frames `fs`. -/
structure RunsTo (n : Nat) (s t : State) (bs : List Byte) (fs : List DecodedFrame) : Prop where
  run : core.run n s = .next t
  taken : takenBytes n s = bs
  frames : delivered n s = fs

namespace RunsTo

variable {n m : Nat} {s t u : State} {bs bs' : List Byte} {fs fs' : List DecodedFrame}

theorem refl (s : State) : RunsTo 0 s s [] [] :=
  ⟨rfl, rfl, rfl⟩

theorem of_step (h : step s = .next t) :
    RunsTo 1 s t (if s.accepts then [s.sample.inData] else []) (if s.takes then s.frame?.toList else []) := by
  refine ⟨(run_succ_eq_next_iff 0 s t).2 ⟨t, h, rfl⟩, ?_, ?_⟩
  · simp [takenBytes, h]
  · simp [delivered, h]

theorem trans (h : RunsTo n s t bs fs) (h' : RunsTo m t u bs' fs') : RunsTo (n + m) s u (bs ++ bs') (fs ++ fs') := by
  induction n generalizing s bs fs with
  | zero =>
    obtain ⟨hrun, rfl, rfl⟩ := h
    cases hrun
    rwa [Nat.zero_add]
  | succ n ih =>
    obtain ⟨hrun, rfl, rfl⟩ := h
    obtain ⟨v, hstep, hrest⟩ := (run_succ_eq_next_iff n s t).1 hrun
    obtain ⟨hrun', htaken', hframes'⟩ := ih ⟨hrest, rfl, rfl⟩
    rw [Nat.succ_add]
    refine ⟨(run_succ_eq_next_iff _ s u).2 ⟨v, hstep, hrun'⟩, ?_, ?_⟩
    · simp [takenBytes, hstep, htaken']
    · simp [delivered, hstep, hframes']

theorem keeps_inv (h : RunsTo n s t bs fs) (hs : s.inv) : t.inv := by
  obtain ⟨t', hrun, ht'⟩ := run_invariant everyStepKeepsR49 n s hs
  obtain rfl : t = t' := Host.Outcome.next.inj (h.run.symm.trans hrun)
  exact ht'

end RunsTo

/-! ### The three kinds of step such runs are made of -/

theorem ControlInv.step_eq_stepRule {s : State} (hs : ControlInv s) : step s = .next (stepRule s.advance s.sample) :=
  stepIsRuleR121 s (by simp [State.startsStep, hs.holdsUnused_eq_false])

theorem stepRule_of_accepts {s : State} (h : s.accepts = true) :
    stepRule s.advance s.sample = acceptByte s.advance s.sample.inData := by
  obtain ⟨hr, hready, hvalid⟩ := s.accepts_eq_true_iff.1 h
  obtain ⟨hparsing, hfree⟩ := s.inReady_eq_true_iff.1 hready
  simp [stepRule, ← terminal_eq_true_iff, hr, hvalid, hparsing, hfree]

theorem runsTo_accept {s : State} (hs : ControlInv s) (h : s.accepts = true) :
    RunsTo 1 s (acceptByte s.advance s.sample.inData) [s.sample.inData] [] := by
  have hstep : step s = .next (acceptByte s.advance s.sample.inData) := by
    rw [hs.step_eq_stepRule, stepRule_of_accepts h]
  obtain ⟨-, htakes, -⟩ := eventsExcludeEachOther s
  simpa [h, show s.takes = false by simpa [h] using htakes] using RunsTo.of_step hstep

/-- The frame that waits is handed to a consumer that is ready (R42). -/
theorem runsTo_handOver {s : State} {f : DecodedFrame} (hs : ControlInv s) (hframe : s.frame? = some f)
    (hr : s.sample.rst = false) (hout : s.sample.outReady = true) :
    RunsTo 1 s { s.advance with outValidR := false } [] [f] := by
  have hwaits : s.outValidR = true := by
    by_contra hfree
    simp [State.frame?, hfree] at hframe
  have htakes : s.takes = true := s.takes_eq_true_iff.2 ⟨hr, hwaits, hout⟩
  have hstep : step s = .next { s.advance with outValidR := false } := by
    rw [hs.step_eq_stepRule]
    simp [stepRule, hr, hwaits, hout]
  obtain ⟨-, haccepts, -⟩ := eventsExcludeEachOther s
  simpa [htakes, hframe, show s.accepts = false by simpa [htakes] using haccepts] using RunsTo.of_step hstep

/-- The stream ends inside a frame (R132). -/
theorem runsTo_truncated {s : State} (hs : ControlInv s) (hends : s.ends = true) (hphase : s.phase ≠ .idle) :
    RunsTo 1 s (s.advance.raise .truncatedFrame) [] [] := by
  obtain ⟨hr, hready, hvalid, heos⟩ := s.ends_eq_true_iff.1 hends
  obtain ⟨hparsing, hfree⟩ := s.inReady_eq_true_iff.1 hready
  have hstep : step s = .next (s.advance.raise .truncatedFrame) := by
    rw [hs.step_eq_stepRule]
    simp [stepRule, ← terminal_eq_true_iff, hr, hvalid, heos, hparsing, hfree, hphase]
  obtain ⟨haccepts, -, htakes⟩ := eventsExcludeEachOther s
  simpa [show s.accepts = false by simpa [hends] using haccepts, show s.takes = false by simpa [hends] using htakes]
    using RunsTo.of_step hstep

/-! ### The samples that offer a list of bytes -/

/-- The samples `pins` offer the bytes `bs`, one a step and without reset, and `rest` comes after them. -/
inductive Offered (rest : List Ports) : List Byte → List Ports → Prop
  | nil : Offered rest [] rest
  | cons {p : Ports} {bs : List Byte} {pins : List Ports} (hr : p.rst = false) (hvalid : p.inValid = true)
      (h : Offered rest bs pins) : Offered rest (p.inData :: bs) (p :: pins)

theorem offered_of_offers {ps rest : List Ports} {bs : List Byte} (h : offers ps bs) : Offered rest bs (ps ++ rest) := by
  obtain ⟨rfl, hports⟩ := h
  induction ps with
  | nil => exact .nil
  | cons p ps ih =>
    obtain ⟨⟨hr, hvalid⟩, hrest⟩ := List.forall_mem_cons.1 hports
    exact .cons hr hvalid (ih hrest)

theorem offers_map_offerByte (bs : List Byte) : offers (bs.map offerByte) bs := by
  constructor
  · simp [Function.comp_def, offerByte]
  · simp [offerByte, Ports.idle]

theorem Offered.append {rest pins : List Ports} {bs bs' : List Byte} (h : Offered rest (bs ++ bs') pins) :
    ∃ mid, Offered mid bs pins ∧ Offered rest bs' mid := by
  induction bs generalizing pins with
  | nil => exact ⟨pins, .nil, h⟩
  | cons b bs ih =>
    cases h with
    | cons hr hvalid h =>
      obtain ⟨mid, hbs, hbs'⟩ := ih h
      exact ⟨mid, .cons hr hvalid hbs, hbs'⟩

/-- The first of the offered bytes is accepted by a block that is ready. -/
theorem Offered.accepts {s : State} {rest : List Ports} {b : Byte} {bs : List Byte} (h : Offered rest (b :: bs) s.pins)
    (hready : s.inReady = true) : s.accepts = true ∧ s.sample.inData = b ∧ Offered rest bs s.pins.tail := by
  generalize hpins : s.pins = pins at h
  cases h with
  | cons hr hvalid h =>
    exact ⟨by simp [State.accepts, State.sample, hpins, hr, hvalid, hready], by simp [State.sample, hpins], h⟩

theorem Offered.nil_eq {rest pins : List Ports} (h : Offered rest [] pins) : pins = rest := by
  cases h
  rfl

/-! ### The state some bytes later -/

/-- `s` with `n` more bytes counted (R133) and the samples `rest` to come; all other registers are those of `s`. -/
def State.afterBytes (s : State) (n : Nat) (rest : List Ports) : State :=
  { s with offR := (s.offR + n) % s.config.offsets, pins := rest }

theorem State.afterBytes_afterBytes (s : State) (n m : Nat) (mid rest : List Ports) :
    (s.afterBytes n mid).afterBytes m rest = s.afterBytes (n + m) rest := by
  simp [State.afterBytes, Nat.add_assoc]

theorem State.afterBytes_zero {s : State} (hfit : s.offR < s.config.offsets) : s.afterBytes 0 s.pins = s := by
  simp [State.afterBytes, Nat.mod_eq_of_lt hfit]

theorem State.afterBytes_offR_lt (s : State) (n : Nat) (rest : List Ports) :
    (s.afterBytes n rest).offR < (s.afterBytes n rest).config.offsets :=
  Nat.mod_lt _ (offsets_pos _)

theorem ControlInv.afterBytes {s : State} (hs : ControlInv s) (n : Nat) (rest : List Ports) :
    ControlInv (s.afterBytes n rest) :=
  hs.withData _ _ _ _ _ _

/-- A delivery does not look at the offset and the samples to come. -/
theorem State.deliver_afterBytes (s : State) (v : Byte) (n : Nat) (rest : List Ports) :
    (s.afterBytes n rest).deliver v = (s.deliver v).afterBytes n rest := by
  obtain ⟨hesc, hoff, -, -, -, -, -, hconfig⟩ := s.deliver_frame v
  have hreframe := s.deliver_reframe v s.esc ((s.offR + n) % s.config.offsets) rest
  simpa [State.afterBytes, hesc, hoff, hconfig] using hreframe

/-! ### The bytes of an escaped field (R86) -/

theorem ControlInv.inReady_of_fieldPhase {s : State} (hs : ControlInv s) (hfield : isFieldPhase s.phase = true) :
    s.inReady = true := by
  refine s.inReady_eq_true_iff.2 ⟨?_, hs.free_of_fieldPhase hfield⟩
  cases hp : s.phase <;> simp [hp, isFieldPhase] at hfield <;> rfl

/-- A literal byte is delivered (R101). -/
theorem acceptByte_literal {s : State} (hfield : isFieldPhase s.phase = true) (hesc : s.esc = .normal) {v : Byte}
    (hv : v ≠ escByte) : acceptByte s.advance v = (s.deliver v).afterBytes 1 s.pins.tail := by
  rw [acceptByte_of_fieldPhase (by simpa using hfield), ← s.deliver_afterBytes]
  simp only [State.advance_esc, hesc, escDecode, if_neg hv]
  simp [State.takeByte, State.afterBytes, hesc]

/-- The first byte of an escape pair is held (R102). -/
theorem acceptByte_escOpen {s : State} (hfield : isFieldPhase s.phase = true) (hesc : s.esc = .normal) :
    acceptByte s.advance escByte = ({ s with esc := .afterEscape }).afterBytes 1 s.pins.tail := by
  rw [acceptByte_of_fieldPhase (by simpa using hfield)]
  simp only [State.advance_esc, hesc, escDecode, if_true]
  rfl

/-- The second byte of an escape pair is delivered (R103). -/
theorem acceptByte_escClose {s : State} (hfield : isFieldPhase s.phase = true) (hesc : s.esc = .afterEscape) :
    acceptByte s.advance escByte = (({ s with esc := .normal }).deliver escByte).afterBytes 1 s.pins.tail := by
  rw [acceptByte_of_fieldPhase (by simpa using hfield), ← State.deliver_afterBytes]
  simp only [State.advance_esc, hesc, escDecode, if_true]
  rfl

/-- One byte taken in a field, with what R121 does with it. -/
theorem runsTo_fieldByte {s u : State} {b : Byte} {rest : List Ports} (hs : ControlInv s)
    (hfield : isFieldPhase s.phase = true) (hoffered : Offered rest [b] s.pins)
    (hafter : acceptByte s.advance b = u.afterBytes 1 s.pins.tail) : RunsTo 1 s (u.afterBytes 1 rest) [b] [] := by
  obtain ⟨haccepts, rfl, hrest⟩ := hoffered.accepts (hs.inReady_of_fieldPhase hfield)
  rw [← hrest.nil_eq, ← hafter]
  exact runsTo_accept hs haccepts

/-- A field byte as it stands on the wire delivers its logical byte. -/
theorem runsTo_escapeByte {s : State} {v : Byte} {rest : List Ports} (hs : ControlInv s)
    (hfield : isFieldPhase s.phase = true) (hesc : s.esc = .normal) (hoffered : Offered rest (escapeByte v) s.pins) :
    RunsTo (escapeByte v).length s ((s.deliver v).afterBytes (escapeByte v).length rest) (escapeByte v) [] := by
  by_cases hv : v = escByte
  · subst hv
    obtain ⟨mid, hopen, hclose⟩ := Offered.append (bs := [escByte]) (bs' := [escByte]) hoffered
    have hheld : ControlInv (({ s with esc := .afterEscape }).afterBytes 1 mid) := (hs.withEsc hfield _).afterBytes _ _
    have hfirst := runsTo_fieldByte hs hfield hopen (acceptByte_escOpen hfield hesc)
    have hsecond := runsTo_fieldByte hheld hfield hclose (acceptByte_escClose hfield rfl)
    have hnormal : { ({ s with esc := .afterEscape }).afterBytes 1 mid with esc := .normal } = s.afterBytes 1 mid := by
      simp [State.afterBytes, hesc]
    rw [hnormal, State.deliver_afterBytes, State.afterBytes_afterBytes] at hsecond
    exact hfirst.trans hsecond
  · rw [escapeByte_of_ne hv] at hoffered ⊢
    exact runsTo_fieldByte hs hfield hoffered (acceptByte_literal hfield hesc hv)

/-- The deliveries of a list of logical bytes, one after the other (R123). -/
def State.deliverAll (s : State) (vs : List Byte) : State :=
  vs.foldl State.deliver s

@[simp] theorem State.deliverAll_nil (s : State) : s.deliverAll [] = s := rfl

@[simp] theorem State.deliverAll_cons (s : State) (v : Byte) (vs : List Byte) :
    s.deliverAll (v :: vs) = (s.deliver v).deliverAll vs := rfl

theorem State.deliverAll_append (s : State) (vs ws : List Byte) :
    s.deliverAll (vs ++ ws) = (s.deliverAll vs).deliverAll ws :=
  List.foldl_append

theorem State.deliverAll_afterBytes (s : State) (vs : List Byte) (n : Nat) (rest : List Ports) :
    (s.afterBytes n rest).deliverAll vs = (s.deliverAll vs).afterBytes n rest := by
  induction vs generalizing s with
  | nil => rfl
  | cons v vs ih => simp [State.deliver_afterBytes, ih]

/-- A field phase is there to take each of the logical bytes `vs`. -/
def State.absorbs (s : State) : List Byte → Prop
  | [] => True
  | v :: vs => isFieldPhase s.phase = true ∧ (s.deliver v).absorbs vs

theorem State.absorbs_append (s : State) (vs ws : List Byte) :
    s.absorbs (vs ++ ws) ↔ s.absorbs vs ∧ (s.deliverAll vs).absorbs ws := by
  induction vs generalizing s with
  | nil => simp [State.absorbs]
  | cons v vs ih => simp [State.absorbs, ih, and_assoc]

theorem State.absorbs_afterBytes {s : State} {vs : List Byte} (n : Nat) (rest : List Ports) (h : s.absorbs vs) :
    (s.afterBytes n rest).absorbs vs := by
  induction vs generalizing s with
  | nil => trivial
  | cons v vs ih =>
    obtain ⟨hfield, hvs⟩ := h
    refine ⟨hfield, ?_⟩
    rw [State.deliver_afterBytes]
    exact ih hvs

/-- Where no escape is open, the deliveries of a field keep the invariants and open none. -/
theorem ControlInv.deliverAll {s : State} {vs : List Byte} (hs : ControlInv s) (hesc : s.esc = .normal)
    (habsorbs : s.absorbs vs) : ControlInv (s.deliverAll vs) ∧ (s.deliverAll vs).esc = .normal := by
  induction vs generalizing s with
  | nil => exact ⟨hs, hesc⟩
  | cons v vs ih =>
    obtain ⟨hfield, hvs⟩ := habsorbs
    obtain ⟨hesc', -⟩ := s.deliver_frame v
    exact ih (hs.deliver hfield hesc v) (hesc'.trans hesc) hvs

/-- The wire bytes of a list of logical bytes deliver just these. -/
theorem runsTo_escapeField {s : State} {vs : List Byte} {rest : List Ports} (hs : ControlInv s)
    (hfit : s.offR < s.config.offsets) (hesc : s.esc = .normal) (habsorbs : s.absorbs vs)
    (hoffered : Offered rest (escapeField vs) s.pins) :
    RunsTo (escapeField vs).length s ((s.deliverAll vs).afterBytes (escapeField vs).length rest) (escapeField vs) [] := by
  induction vs generalizing s with
  | nil =>
    have hsame : s.afterBytes 0 rest = s := by
      rw [← hoffered.nil_eq]
      exact State.afterBytes_zero hfit
    exact hsame.symm ▸ RunsTo.refl s
  | cons v vs ih =>
    obtain ⟨hfield, hvs⟩ := habsorbs
    obtain ⟨mid, hbyte, hrest⟩ := hoffered.append
    obtain ⟨hesc', -⟩ := s.deliver_frame v
    have hfirst := runsTo_escapeByte hs hfield hesc hbyte
    have hlater := ih (s := (s.deliver v).afterBytes (escapeByte v).length mid)
      ((hs.deliver hfield hesc v).afterBytes _ _) (State.afterBytes_offR_lt _ _ _) (hesc'.trans hesc)
      (State.absorbs_afterBytes _ _ hvs) hrest
    rw [State.deliverAll_afterBytes, State.afterBytes_afterBytes] at hlater
    simpa using hfirst.trans hlater

end Sys2Proof.Machine

/-! ## Whole fields, whole frames and streams

The logical bytes of a frame fill its fields in order (R85, R122, R129): an identity frame leaves no trace, a data frame waits for
the consumer as it was encoded, and a frame that is cut short is an error (R136). -/

namespace Sys2Proof.Machine

/-! ### A field from its first to its last logical byte -/

/-- A logical byte that is not the field's last: it is stored and counted (R123). -/
def State.storeNext (s : State) (v : Byte) : State :=
  { s.storeByte v with cnt := s.cnt + 1 }

theorem State.deliver_eq_storeNext {s : State} (h : s.cnt.toNat + 1 ≠ fieldLen s.phase s.kindR) (v : Byte) :
    s.deliver v = s.storeNext v := by
  rw [State.deliver, State.countByte_inside _ (by simpa using h), State.storeNext, State.storeByte_cnt]

/-- The field's phase takes as many logical bytes as are missing. -/
theorem State.absorbs_of_length_le {s : State} {vs : List Byte} (hfield : isFieldPhase s.phase = true)
    (hlen : s.cnt.toNat + vs.length ≤ fieldLen s.phase s.kindR) : s.absorbs vs := by
  induction vs generalizing s with
  | nil => trivial
  | cons v vs ih =>
    refine ⟨hfield, ?_⟩
    cases vs with
    | nil => trivial
    | cons w ws =>
      have hle := fieldLen_le s.phase s.kindR
      simp only [List.length_cons] at hlen ih
      have hsucc := count_succ_toNat s.cnt (by omega)
      rw [State.deliver_eq_storeNext (by omega)]
      refine ih (s := s.storeNext v) (by simpa [State.storeNext] using hfield) ?_
      simp only [State.storeNext, State.storeByte_phase, State.storeByte_kindR, hsucc]
      omega

/-- The logical bytes of a field stored one after the other. -/
def State.storeAll (s : State) (vs : List Byte) : State :=
  vs.foldl State.storeNext s

/-- A field in full: its bytes are stored, and the next phase begins with the count at 0 (R123, R129). -/
theorem State.deliverAll_field {s : State} {vs : List Byte} (hne : vs ≠ [])
    (hlen : s.cnt.toNat + vs.length = fieldLen s.phase s.kindR) :
    s.deliverAll vs =
      { s.storeAll vs with
        cnt := 0, phase := nextPhase s.phase, outValidR := s.outValidR || (s.phase == .payload) } := by
  induction vs generalizing s with
  | nil => exact absurd rfl hne
  | cons v vs ih =>
    cases vs with
    | nil =>
      rw [State.deliverAll_cons, State.deliver, State.countByte_last _ (by simpa using hlen)]
      simp [State.storeAll, State.storeNext]
    | cons w ws =>
      have hle := fieldLen_le s.phase s.kindR
      simp only [List.length_cons] at hlen ih
      have hsucc := count_succ_toNat s.cnt (by omega)
      rw [State.deliverAll_cons, State.deliver_eq_storeNext (by omega), ih (by simp)]
      · simp [State.storeAll, State.storeNext]
      · simp only [State.storeNext, State.storeByte_phase, State.storeByte_kindR, hsucc]
        omega

/-- An identity body is counted and not stored (R130). -/
theorem State.storeAll_ident {s : State} (hident : s.phase = .ident) (vs : List Byte) :
    ∃ c, s.storeAll vs = { s with cnt := c } := by
  induction vs generalizing s with
  | nil => exact ⟨s.cnt, rfl⟩
  | cons v vs ih =>
    have hnext : s.storeNext v = { s with cnt := s.cnt + 1 } := by simp [State.storeNext, State.storeByte, hident]
    obtain ⟨c, hc⟩ := ih (s := { s with cnt := s.cnt + 1 }) hident
    exact ⟨c, by simpa [State.storeAll, hnext] using hc⟩

/-- The bytes of a timestamp are shifted in from the low end (R151). -/
def shiftBytes (x : BitVec 48) (vs : List Byte) : BitVec 48 :=
  vs.foldl (fun y v => y.setWidth 40 ++ v) x

theorem State.storeAll_ts {s : State} (hts : s.phase = .ts) (vs : List Byte) :
    ∃ c, s.storeAll vs = { s with tsR := shiftBytes s.tsR vs, cnt := c } := by
  induction vs generalizing s with
  | nil => exact ⟨s.cnt, rfl⟩
  | cons v vs ih =>
    have hnext : s.storeNext v = { s with tsR := s.tsR.setWidth 40 ++ v, cnt := s.cnt + 1 } := by
      simp [State.storeNext, State.storeByte, State.shiftTs, hts]
    obtain ⟨c, hc⟩ := ih (s := { s with tsR := s.tsR.setWidth 40 ++ v, cnt := s.cnt + 1 }) hts
    exact ⟨c, by simpa [State.storeAll, shiftBytes, hnext] using hc⟩

/-- Six bytes, most significant first, replace whatever the register held (R150, R152). -/
theorem shiftBytes_timestampBytes (x ts : BitVec 48) : shiftBytes x (timestampBytes ts) = ts := by
  apply BitVec.eq_of_toNat_eq
  simp only [shiftBytes, timestampBytes, List.foldl_cons, List.foldl_nil, append_byte_toNat, BitVec.toNat_setWidth,
    BitVec.extractLsb'_toNat, Nat.shiftRight_eq_div_pow]
  omega

/-- The payload bytes go to the buffer one after the other, from number `i` on (R157). -/
def writeBytes (pay : Vector Byte 14) (i : Nat) : List Byte → Vector Byte 14
  | [] => pay
  | v :: vs => writeBytes (pay.setIfInBounds i v) (i + 1) vs

theorem State.storeAll_payload {s : State} {vs : List Byte} (hpayload : s.phase = .payload)
    (hlen : s.cnt.toNat + vs.length ≤ 14) :
    ∃ c, s.storeAll vs = { s with payR := writeBytes s.payR s.cnt.toNat vs, cnt := c } := by
  induction vs generalizing s with
  | nil => exact ⟨s.cnt, rfl⟩
  | cons v vs ih =>
    rw [List.length_cons] at hlen
    have hsucc := count_succ_toNat s.cnt (by omega)
    have hnext : s.storeNext v = { s with payR := s.payR.setIfInBounds s.cnt.toNat v, cnt := s.cnt + 1 } := by
      simp [State.storeNext, State.storeByte, State.writePayload, hpayload]
    obtain ⟨c, hc⟩ := ih (s := { s with payR := s.payR.setIfInBounds s.cnt.toNat v, cnt := s.cnt + 1 }) hpayload
      (by simp only [hsucc]; omega)
    simp only [hsucc] at hc
    exact ⟨c, by simpa [State.storeAll, writeBytes, hnext] using hc⟩

/-- The bytes written stand behind those that were there before. -/
theorem writeBytes_toList_take (pay : Vector Byte 14) (i : Nat) (vs : List Byte) (hlen : i + vs.length ≤ 14) :
    (writeBytes pay i vs).toList.take (i + vs.length) = pay.toList.take i ++ vs := by
  induction vs generalizing pay i with
  | nil => simp [writeBytes]
  | cons v vs ih =>
    rw [List.length_cons] at hlen ⊢
    have hwritten : (pay.setIfInBounds i v).toList.take (i + 1) = pay.toList.take i ++ [v] := by
      have hbound : i < pay.toList.length := by simp; omega
      rw [Vector.toList_setIfInBounds, List.take_add_one, List.take_set_of_le (Nat.le_refl i),
        List.getElem?_set_self hbound]
      rfl
    rw [writeBytes, show i + (vs.length + 1) = i + 1 + vs.length by omega, ih _ _ (by omega), hwritten]
    simp

/-! ### The four fields -/

theorem State.deliverAll_timestamp {s : State} (hts : s.phase = .ts) (hcnt : s.cnt = 0) (ts : BitVec 48) :
    s.deliverAll (timestampBytes ts) = { s with tsR := ts, cnt := 0, phase := .level } := by
  obtain ⟨c, hstored⟩ := State.storeAll_ts hts (timestampBytes ts)
  rw [State.deliverAll_field (by simp [timestampBytes]) (by simp [hts, hcnt, fieldLen, timestampBytes]), hstored,
    shiftBytes_timestampBytes]
  simp [hts, nextPhase]

theorem State.deliverAll_level {s : State} (hlevel : s.phase = .level) (hcnt : s.cnt = 0) (v : Byte) :
    s.deliverAll [v] = { s with levelR := v, cnt := 0, phase := .payload } := by
  rw [State.deliverAll_field (by simp) (by simp [hlevel, hcnt, fieldLen])]
  simp [State.storeAll, State.storeNext, State.storeByte, State.writeLevel, hlevel, nextPhase]

theorem State.deliverAll_payload {s : State} {vs : List Byte} (hpayload : s.phase = .payload) (hcnt : s.cnt = 0)
    (hkind : s.kindR ≠ .unset) (hlen : vs.length = payloadLen s.kindR) :
    s.deliverAll vs = { s with payR := writeBytes s.payR 0 vs, cnt := 0, phase := .idle, outValidR := true } := by
  have hpos := payloadLen_pos hkind
  have hle := payloadLen_le s.kindR
  have hne : vs ≠ [] := List.ne_nil_of_length_pos (by omega)
  obtain ⟨c, hstored⟩ := State.storeAll_payload (vs := vs) hpayload (by simp [hcnt]; omega)
  rw [State.deliverAll_field hne (by simp [hpayload, hcnt, fieldLen, hlen]), hstored]
  simp [hpayload, hcnt, nextPhase]

theorem State.deliverAll_ident {s : State} {body : List Byte} (hident : s.phase = .ident) (hcnt : s.cnt = 0)
    (hlen : body.length = 8) : s.deliverAll body = { s with cnt := 0, phase := .idle } := by
  have hne : body ≠ [] := List.ne_nil_of_length_pos (by omega)
  obtain ⟨c, hstored⟩ := State.storeAll_ident hident body
  rw [State.deliverAll_field hne (by simp [hident, hcnt, fieldLen, hlen]), hstored]
  simp [hident, nextPhase]

/-! ### A frame from its lead byte to its last -/

/-- The state after the lead byte and the marker of a frame, but for the offset (R124, R126, R127). -/
def StreamFrame.opened (s : State) : StreamFrame → State
  | .data f => s.classify (frameMarker f.kind)
  | .ident _ => s.openIdent

theorem kindOfCode_frameMarker (k : FrameKind) : kindOfCode ((frameMarker k).setWidth 2) = kindOfFrame k := by
  cases k <;> decide

theorem kindOfFrame_ne_unset (k : FrameKind) : kindOfFrame k ≠ .unset := by
  cases k <;> decide

theorem frameKind?_kindOfFrame (k : FrameKind) : frameKind? (kindOfFrame k) = some k := by
  cases k <;> rfl

/-- A frame boundary with no frame waiting, in a state with the invariants. -/
structure AtBoundary (s : State) : Prop where
  inv : s.inv
  idle : s.phase = .idle
  free : s.outValidR = false

namespace AtBoundary

variable {s : State}

theorem control (hs : AtBoundary s) : ControlInv s :=
  (s.inv_iff.1 hs.inv).1

theorem fit (hs : AtBoundary s) : s.offR < s.config.offsets :=
  (s.inv_iff.1 hs.inv).2.1

theorem opened (hs : AtBoundary s) (x : StreamFrame) : ControlInv (x.opened s) := by
  have hmarker : ControlInv { s with phase := .marker } := hs.control.leaveIdle hs.idle hs.free (.inl rfl)
  cases x with
  | data f => exact hmarker.classify rfl hs.free (by rw [kindOfCode_frameMarker]; exact kindOfFrame_ne_unset _)
  | ident => exact hmarker.openIdent rfl hs.free

end AtBoundary

theorem StreamFrame.opened_esc (s : State) (x : StreamFrame) : (x.opened s).esc = .normal := by
  cases x <;> rfl

theorem frameMarker_mem (k : FrameKind) :
    frameMarker k = markerAc ∨ frameMarker k = markerSs ∨ frameMarker k = markerSl := by
  cases k <;> decide

theorem acceptByte_marker {s : State} (hmarker : s.phase = .marker) (x : StreamFrame) :
    acceptByte s x.marker = (x.opened s).takeByte := by
  rw [acceptByte_of_marker hmarker]
  cases x with
  | data f => exact if_pos (frameMarker_mem f.kind)
  | ident => rfl

theorem runsTo_lead {s : State} {rest : List Ports} (hs : AtBoundary s) (hoffered : Offered rest [0x1A] s.pins) :
    RunsTo 1 s (({ s with phase := .marker }).afterBytes 1 rest) [0x1A] [] := by
  have hready : s.inReady = true := by simp [State.inReady, isParsingPhase, hs.idle, hs.free]
  obtain ⟨haccepts, hdata, hrest⟩ := hoffered.accepts hready
  have hrun := runsTo_accept hs.control haccepts
  rw [hdata, acceptByte_of_idle (by simpa using hs.idle)] at hrun
  rw [← hrest.nil_eq]
  exact hrun

theorem runsTo_opened {s : State} {x : StreamFrame} {rest : List Ports} (hs : AtBoundary s)
    (hoffered : Offered rest [0x1A, x.marker] s.pins) :
    RunsTo 2 s ((x.opened s).afterBytes 2 rest) [0x1A, x.marker] [] := by
  obtain ⟨mid, hlead, hmarker⟩ := Offered.append (bs := [0x1A]) (bs' := [x.marker]) hoffered
  have hfirst := runsTo_lead hs hlead
  have hcontrol : ControlInv (({ s with phase := .marker }).afterBytes 1 mid) :=
    (hs.control.leaveIdle hs.idle hs.free (.inl rfl)).afterBytes _ _
  have hready : (({ s with phase := .marker }).afterBytes 1 mid).inReady = true := by
    simp [State.inReady, isParsingPhase, State.afterBytes, hs.free]
  obtain ⟨haccepts, hdata, hrest⟩ := hmarker.accepts hready
  have hsecond := runsTo_accept hcontrol haccepts
  rw [hdata, acceptByte_marker rfl] at hsecond
  have hopened : (x.opened (({ s with phase := .marker }).afterBytes 1 mid).advance).takeByte =
      (x.opened s).afterBytes 2 rest := by
    rw [← hrest.nil_eq]
    cases x <;> simp [StreamFrame.opened, State.takeByte, State.afterBytes, State.classify, State.openIdent,
      State.advance, Nat.add_assoc]
  rw [hopened] at hsecond
  exact hfirst.trans hsecond

/-- The state in which the data frame `f` waits for the consumer, but for the offset. -/
def State.completed (s : State) (f : DecodedFrame) : State :=
  { s with
    kindR := kindOfFrame f.kind, tsR := f.timestamp, levelR := f.signalLevel
    payR := writeBytes (Vector.replicate 14 0) 0 f.payload
    cnt := 0, esc := .normal, phase := .idle, outValidR := true }

/-- The logical bytes of a data frame fill its three fields in order (R85). -/
theorem dataFrame_fills (s : State) {f : DecodedFrame} (hf : f.wellFormed = true) :
    ((StreamFrame.data f).opened s).absorbs (StreamFrame.data f).logicalBytes ∧
      ((StreamFrame.data f).opened s).deliverAll (StreamFrame.data f).logicalBytes = s.completed f := by
  have hkind := kindOfCode_frameMarker f.kind
  have hlen := DecodedFrame.payload_length hf
  have htimestamp := State.deliverAll_timestamp (s := s.classify (frameMarker f.kind)) rfl rfl f.timestamp
  have hlevel := State.deliverAll_level
    (s := { s.classify (frameMarker f.kind) with tsR := f.timestamp, cnt := 0, phase := .level }) rfl rfl f.signalLevel
  have hpayload := State.deliverAll_payload (vs := f.payload)
    (s := { s.classify (frameMarker f.kind) with
      tsR := f.timestamp, levelR := f.signalLevel, cnt := 0, phase := .payload })
    rfl rfl (by simpa [hkind] using kindOfFrame_ne_unset f.kind) (by simpa [hkind] using hlen)
  simp only [StreamFrame.opened, StreamFrame.logicalBytes, State.absorbs_append, State.deliverAll_append, htimestamp,
    hlevel, hpayload]
  refine ⟨⟨?_, ?_, ?_⟩, ?_⟩
  · exact State.absorbs_of_length_le rfl (by simp [fieldLen, timestampBytes_length])
  · exact State.absorbs_of_length_le rfl (by simp [fieldLen])
  · exact State.absorbs_of_length_le rfl (by simp [fieldLen, hkind, hlen])
  · simp [State.completed, State.classify, hkind]

/-- The eight logical bytes of an identity body fill its one field. -/
theorem identFrame_fills {s : State} (hs : AtBoundary s) {body : List Byte} (hlen : body.length = 8) :
    ((StreamFrame.ident body).opened s).absorbs body ∧ ((StreamFrame.ident body).opened s).deliverAll body = s := by
  obtain ⟨hesc, hcnt⟩ := hs.control.rests (.inl hs.idle)
  refine ⟨State.absorbs_of_length_le rfl (by simp [StreamFrame.opened, fieldLen, hlen]), ?_⟩
  have hfilled := State.deliverAll_ident (s := (StreamFrame.ident body).opened s) rfl rfl hlen
  rw [hfilled]
  simp [StreamFrame.opened, State.openIdent, ← hesc, ← hcnt, ← hs.idle]

theorem StreamFrame.opened_absorbs {s : State} {x : StreamFrame} (hs : AtBoundary s) (hx : x.wellFormed = true) :
    (x.opened s).absorbs x.logicalBytes := by
  cases x with
  | data f => exact (dataFrame_fills s hx).1
  | ident body => exact (identFrame_fills hs (eq_of_beq hx)).1

/-- The wire bytes of a frame, and what they leave. -/
theorem runsTo_frame {s : State} {x : StreamFrame} {rest : List Ports} (hs : AtBoundary s) (hx : x.wellFormed = true)
    (hoffered : Offered rest x.bytes s.pins) :
    RunsTo x.bytes.length s (((x.opened s).deliverAll x.logicalBytes).afterBytes x.bytes.length rest) x.bytes [] := by
  rw [x.bytes_eq] at hoffered ⊢
  obtain ⟨mid, hopening, hfields⟩ := Offered.append (bs := [0x1A, x.marker]) hoffered
  have hfirst := runsTo_opened hs hopening
  have hlater := runsTo_escapeField (s := (x.opened s).afterBytes 2 mid) ((hs.opened x).afterBytes _ _)
    (State.afterBytes_offR_lt _ _ _) (x.opened_esc s) (State.absorbs_afterBytes _ _ (x.opened_absorbs hs hx)) hfields
  rw [State.deliverAll_afterBytes, State.afterBytes_afterBytes] at hlater
  have hlength : (0x1A :: x.marker :: escapeField x.logicalBytes).length = 2 + (escapeField x.logicalBytes).length := by
    simp [Nat.add_comm 2]
  rw [hlength]
  exact hfirst.trans hlater

/-- Settles O54: the marker opens a field of eight bytes, and each of them is only counted. -/
theorem identityFrameLeavesNoTrace : Obligations.IdentityFrameLeavesNoTrace := by
  unfold Obligations.IdentityFrameLeavesNoTrace
  intro body s ps rest hlen hinv hidle hfree hoffers hpins
  have hs : AtBoundary s := ⟨hinv, hidle, hfree⟩
  have hoffered : Offered rest (StreamFrame.ident body).bytes s.pins := hpins ▸ offered_of_offers hoffers
  have hruns := runsTo_frame (x := .ident body) hs (beq_iff_eq.2 hlen) hoffered
  obtain ⟨-, hfilled⟩ := identFrame_fills hs hlen
  rw [show (StreamFrame.ident body).logicalBytes = body from rfl, hfilled] at hruns
  exact ⟨hruns.run, hruns.frames⟩

/-! ### Streams -/

theorem frame?_completed (s : State) {f : DecodedFrame} (hf : f.wellFormed = true) (n : Nat) (rest : List Ports) :
    ((s.completed f).afterBytes n rest).frame? = some f := by
  have hlen := DecodedFrame.payload_length hf
  have hle := payloadLen_le (kindOfFrame f.kind)
  have htake : (writeBytes (Vector.replicate 14 0#8) 0 f.payload).toList.take (payloadLen (kindOfFrame f.kind)) = f.payload := by
    simpa [hlen] using writeBytes_toList_take (Vector.replicate 14 0#8) 0 f.payload (by omega)
  simp [State.frame?, State.afterBytes, State.completed, frameKind?_kindOfFrame, htake]

/-- A data frame is offered and handed over at once; the block stands at the next boundary. -/
theorem runsTo_dataFrame {s : State} {f : DecodedFrame} {rest : List Ports} (hs : AtBoundary s)
    (hf : f.wellFormed = true) (hpins : s.pins = (encodeFrame f).map offerByte ++ offerReady :: rest) :
    ∃ t, RunsTo ((encodeFrame f).length + 1) s t (encodeFrame f) [f] ∧ AtBoundary t ∧ t.pins = rest := by
  have hoffered : Offered (offerReady :: rest) (StreamFrame.data f).bytes s.pins :=
    hpins ▸ offered_of_offers (offers_map_offerByte _)
  have hbytes := runsTo_frame (x := .data f) hs hf hoffered
  rw [(dataFrame_fills s hf).2] at hbytes
  have hinv := hbytes.keeps_inv hs.inv
  have hhandOver := runsTo_handOver (State.inv_iff _ |>.1 hinv).1 (frame?_completed s hf _ _) rfl rfl
  have hruns := hbytes.trans hhandOver
  simp only [List.append_nil, List.nil_append] at hruns
  exact ⟨_, hruns, ⟨hruns.keeps_inv hs.inv, rfl, rfl⟩, rfl⟩

/-- A stream of frames, each handed over at once: the consumer gets its data frames in order. -/
theorem runsTo_stream {xs : List StreamFrame} {s : State} {rest : List Ports} (hs : AtBoundary s)
    (hxs : ∀ x ∈ xs, x.wellFormed = true) (hpins : s.pins = streamSteps xs ++ rest) :
    ∃ t, RunsTo (streamSteps xs).length s t (streamBytes xs) (dataFrames xs) ∧ AtBoundary t ∧ t.pins = rest := by
  induction xs generalizing s with
  | nil => exact ⟨s, .refl s, hs, hpins⟩
  | cons x xs ih =>
    obtain ⟨hx, hxs'⟩ := List.forall_mem_cons.1 hxs
    cases x with
    | data f =>
      obtain ⟨u, hfirst, hu, hmid⟩ := runsTo_dataFrame (rest := streamSteps xs ++ rest) hs hx
        (by simpa [streamSteps] using hpins)
      obtain ⟨t, hlater, ht, hrest⟩ := ih hu hxs' hmid
      refine ⟨t, ?_, ht, hrest⟩
      have hlength : (streamSteps (.data f :: xs)).length = (encodeFrame f).length + 1 + (streamSteps xs).length := by
        simp [streamSteps, Nat.add_assoc, Nat.add_comm 1]
      rw [hlength]
      exact hfirst.trans hlater
    | ident body =>
      have hoffered : Offered (streamSteps xs ++ rest) (StreamFrame.ident body).bytes s.pins := by
        rw [hpins, streamSteps, List.append_assoc]
        exact offered_of_offers (offers_map_offerByte _)
      have hfirst := runsTo_frame hs hx hoffered
      rw [show (StreamFrame.ident body).logicalBytes = body from rfl, (identFrame_fills hs (eq_of_beq hx)).2] at hfirst
      obtain ⟨t, hlater, ht, hrest⟩ := ih ⟨hfirst.keeps_inv hs.inv, hs.idle, hs.free⟩ hxs' rfl
      refine ⟨t, ?_, ht, hrest⟩
      rw [streamSteps, List.length_append, List.length_map]
      exact hfirst.trans hlater

/-! ### A frame that is cut short (R136) -/

/-- A field cut on the wire: some logical bytes in full, and perhaps an escape that was opened for the next. -/
theorem escapeField_take_cases {vs : List Byte} {k : Nat} (hk : k < (escapeField vs).length) :
    ∃ pre v post, vs = pre ++ v :: post ∧
      ((escapeField vs).take k = escapeField pre ∨ (escapeField vs).take k = escapeField pre ++ [escByte]) := by
  induction vs generalizing k with
  | nil => simp at hk
  | cons v vs ih =>
    rw [escapeField_cons, List.length_append] at hk
    by_cases hfirst : k < (escapeByte v).length
    · refine ⟨[], v, vs, rfl, ?_⟩
      rw [escapeField_cons, List.take_append_of_le_length hfirst.le]
      by_cases hv : v = 0x1A#8
      · subst hv
        have hle : k < 2 := hfirst
        interval_cases k
        · exact .inl rfl
        · exact .inr rfl
      · rw [escapeByte_of_ne hv] at hfirst ⊢
        obtain rfl : k = 0 := by simpa using hfirst
        exact .inl rfl
    · obtain ⟨pre, w, post, hvs, hcut⟩ := ih (k := k - (escapeByte v).length) (by omega)
      refine ⟨v :: pre, w, post, by rw [hvs]; rfl, ?_⟩
      rw [escapeField_cons, List.take_append, List.take_of_length_le (by omega), escapeField_cons, List.append_assoc]
      exact hcut.imp (congrArg _) (congrArg _)

/-- A field cut on the wire is still open. -/
theorem runsTo_cutField {s : State} {vs : List Byte} {k : Nat} {rest : List Ports} (hs : ControlInv s)
    (hfit : s.offR < s.config.offsets) (hesc : s.esc = .normal) (habsorbs : s.absorbs vs)
    (hk : k < (escapeField vs).length) (hoffered : Offered rest ((escapeField vs).take k) s.pins) :
    ∃ t, RunsTo k s t ((escapeField vs).take k) [] ∧ ControlInv t ∧ isFieldPhase t.phase = true ∧ t.pins = rest := by
  have hlength : ((escapeField vs).take k).length = k := List.length_take_of_le hk.le
  obtain ⟨pre, v, post, rfl, hcut⟩ := escapeField_take_cases hk
  obtain ⟨hpre, hfield, -⟩ := (s.absorbs_append pre (v :: post)).1 habsorbs
  obtain ⟨hcontrol, hnormal⟩ := hs.deliverAll hesc hpre
  generalize (escapeField (pre ++ v :: post)).take k = bs at hcut hlength hoffered ⊢
  subst hlength
  obtain rfl | rfl := hcut
  · exact ⟨_, runsTo_escapeField hs hfit hesc hpre hoffered, hcontrol.afterBytes _ _, hfield, rfl⟩
  · obtain ⟨mid, hbytes, hopen⟩ := hoffered.append
    have hfirst := runsTo_escapeField hs hfit hesc hpre hbytes
    have hheld := runsTo_fieldByte (hcontrol.afterBytes (escapeField pre).length mid) hfield hopen
      (acceptByte_escOpen hfield hnormal)
    have hruns := hfirst.trans hheld
    rw [← List.length_singleton (a := escByte), ← List.length_append] at hruns
    exact ⟨_, hruns, ((hcontrol.afterBytes _ _).withEsc hfield _).afterBytes _ _, hfield, rfl⟩

/-- A frame cut on the wire is still open: the block waits for its marker or for a byte of a field. -/
theorem runsTo_cutFrame {s : State} {x : StreamFrame} {k : Nat} {rest : List Ports} (hs : AtBoundary s)
    (hx : x.wellFormed = true) (hpos : 1 ≤ k) (hk : k < x.bytes.length)
    (hoffered : Offered rest (x.bytes.take k) s.pins) :
    ∃ t, RunsTo k s t (x.bytes.take k) [] ∧ t.inReady = true ∧ t.phase ≠ .idle ∧ t.pins = rest := by
  rw [x.bytes_eq] at hk hoffered ⊢
  obtain rfl | ⟨j, rfl⟩ : k = 1 ∨ ∃ j, k = 2 + j := by
    rcases Nat.lt_or_ge k 2 with h | h
    · exact .inl (by omega)
    · exact .inr ⟨k - 2, by omega⟩
  · exact ⟨_, runsTo_lead hs hoffered, by simp [State.inReady, isParsingPhase, State.afterBytes, hs.free],
      by simp [State.afterBytes], rfl⟩
  · have htake : (0x1A :: x.marker :: escapeField x.logicalBytes).take (2 + j) =
        [0x1A, x.marker] ++ (escapeField x.logicalBytes).take j := by
      rw [Nat.add_comm]
      rfl
    rw [htake] at hoffered ⊢
    obtain ⟨mid, hopening, hfields⟩ := hoffered.append
    have hfirst := runsTo_opened hs hopening
    obtain ⟨t, hlater, ht, hfield, hrest⟩ := runsTo_cutField (s := (x.opened s).afterBytes 2 mid)
      ((hs.opened x).afterBytes _ _) (State.afterBytes_offR_lt _ _ _) (x.opened_esc s)
      (State.absorbs_afterBytes _ _ (x.opened_absorbs hs hx))
      (by simpa [Nat.add_comm 2] using hk) hfields
    exact ⟨t, hfirst.trans hlater, ht.inReady_of_fieldPhase hfield, by rintro h; simp [h, isFieldPhase] at hfield, hrest⟩

theorem map_offerByte_noReset (bs : List Byte) : ∀ p ∈ bs.map offerByte, p.rst = false := by
  intro p hp
  exact ((offers_map_offerByte bs).2 p hp).1

theorem streamSteps_noReset (xs : List StreamFrame) : ∀ p ∈ streamSteps xs, p.rst = false := by
  induction xs with
  | nil => simp [streamSteps]
  | cons x xs ih =>
    cases x with
    | data f =>
      simp only [streamSteps, List.forall_mem_append, List.forall_mem_cons]
      exact ⟨map_offerByte_noReset _, rfl, ih⟩
    | ident body =>
      simp only [streamSteps, List.forall_mem_append]
      exact ⟨map_offerByte_noReset _, ih⟩

/-- Settles O57: the stream's frames are handed over, the cut frame is still open, and `End` there is a truncation whose offset is
the number of the bytes taken. -/
theorem truncationIsAnErrorNeverAPartialFrame : Obligations.TruncationIsAnErrorNeverAPartialFrame := by
  unfold Obligations.TruncationIsAnErrorNeverAPartialFrame
  intro xs x k s rest hxs hx hpos hk hinv hidle hfree hpins
  have hs : AtBoundary s := ⟨hinv, hidle, hfree⟩
  obtain ⟨u, hstream, hu, hmid⟩ := runsTo_stream hs hxs hpins
  have hoffered : Offered (offerEnd :: rest) (x.bytes.take k) u.pins :=
    hmid ▸ offered_of_offers (offers_map_offerByte _)
  obtain ⟨t, hcut, hready, hopen, hrest⟩ := runsTo_cutFrame hu hx hpos hk hoffered
  have htaken := hstream.trans hcut
  have ht : t.inv := htaken.keeps_inv hinv
  have hends : t.ends = true := by simp [State.ends, State.sample, hrest, hready, offerEnd, Ports.idle]
  have hruns := htaken.trans (runsTo_truncated (t.inv_iff.1 ht).1 hends hopen)
  have hnoReset : ∀ p ∈ s.pins.take ((streamSteps xs).length + k), p.rst = false := by
    have htake : s.pins.take ((streamSteps xs).length + k) = streamSteps xs ++ (x.bytes.take k).map offerByte := by
      rw [hpins, ← List.append_assoc, List.take_left' (by simp [hk.le])]
    rw [htake, List.forall_mem_append]
    exact ⟨streamSteps_noReset xs, map_offerByte_noReset _⟩
  obtain ⟨-, hoff⟩ := run_offR hs.fit hnoReset htaken.run
  refine ⟨by simpa using hruns.frames, _, hruns.run, rfl, rfl, (t.inReady_eq_true_iff.1 hready).2, ?_⟩
  calc t.offR = (s.offR + (takenBytes ((streamSteps xs).length + k) s).length) % s.config.offsets := hoff
    _ = (s.offR + (streamBytes xs).length + k) % s.config.offsets := by
      rw [htaken.taken, List.length_append, List.length_take_of_le hk.le, Nat.add_assoc]

end Sys2Proof.Machine

/-! ## The data a frame captures

The rows that store a logical byte (R151, R155, R157), and the six bytes of a timestamp (R150, R152). -/

namespace Sys2Proof.Machine

/-! ### The logical-byte rows -/

/-- A field phase is one whose field has a length. -/
theorem isFieldPhase_of_fieldLen_pos {p : Phase} {k : Kind} (h : 0 < fieldLen p k) : isFieldPhase p = true := by
  cases p with
  | ts | level | payload | ident => rfl
  | idle | marker | done | error => simp [fieldLen] at h

/-- Inside its field, a logical-byte row delivers its byte (R93, R123). -/
theorem exec_of_decodeLogical {s : State} {v : Byte} {i : Instr} (hrow : decodeLogical s.phase v = some i)
    (hopen : s.cnt.toNat < fieldLen s.phase s.kindR) : exec i s = .next (s.deliver v) := by
  obtain ⟨j, hj, hexec⟩ := exec_logicalRow_eq_deliver (isFieldPhase_of_fieldLen_pos (Nat.zero_lt_of_lt hopen)) hopen v
  obtain rfl : j = i := Option.some.inj (hj.symm.trans hrow)
  exact hexec

/-- The last logical byte of a field is stored, and the next phase begins with the count at 0 (R123, R129). -/
theorem State.deliver_last {s : State} (h : s.cnt.toNat + 1 = fieldLen s.phase s.kindR) (v : Byte) :
    s.deliver v =
      { s.storeByte v with
        cnt := 0, phase := nextPhase s.phase, outValidR := s.outValidR || (s.phase == .payload) } := by
  rw [State.deliver, State.countByte_last _ (by simpa using h)]
  simp

theorem State.storeByte_of_ts {s : State} (h : s.phase = .ts) (v : Byte) : s.storeByte v = s.shiftTs v := by
  simp [State.storeByte, h]

theorem State.storeByte_of_level {s : State} (h : s.phase = .level) (v : Byte) : s.storeByte v = s.writeLevel v := by
  simp [State.storeByte, h]

theorem State.storeByte_of_payload {s : State} (h : s.phase = .payload) (v : Byte) :
    s.storeByte v = s.writePayload v := by
  simp [State.storeByte, h]

/-- Settles O10: the row delivers its byte to the timestamp, and the count is the field's last at 5 (R122). -/
theorem timestampByteShiftsIn : Obligations.TimestampByteShiftsIn := by
  unfold Obligations.TimestampByteShiftsIn
  intro s v hts hopen
  have hexec : exec (.tsByte v) s = .next (s.deliver v) :=
    exec_of_decodeLogical (by rw [hts]; rfl) (by simpa [hts, fieldLen] using hopen)
  have hlast : s.cnt.toNat + 1 = fieldLen s.phase s.kindR ↔ s.cnt = 5 := by
    rw [hts, fieldLen, BitVec.toNat_eq]
    simp
  rw [hexec, ← BitVec.setWidth_eq_extractLsb' (by decide)]
  by_cases hfive : s.cnt = 5
  · rw [if_pos hfive, State.deliver_last (hlast.2 hfive), State.storeByte_of_ts hts]
    simp [State.shiftTs, hts, nextPhase]
  · rw [if_neg hfive, State.deliver_eq_storeNext (mt hlast.1 hfive), State.storeNext, State.storeByte_of_ts hts]
    rfl

/-- Settles O11: the row delivers its byte to the level, a field of one byte (R122). -/
theorem levelByteIsCaptured : Obligations.LevelByteIsCaptured := by
  unfold Obligations.LevelByteIsCaptured
  intro s v hlevel hcnt
  have hexec : exec (.levelByte v) s = .next (s.deliverAll [v]) :=
    exec_of_decodeLogical (by rw [hlevel]; rfl) (by simp [hlevel, hcnt, fieldLen])
  rw [hexec, State.deliverAll_level hlevel hcnt]

/-- The payload write changes the byte at the count alone (R157). -/
theorem State.writePayload_getElem (s : State) (v : Byte) (j : Fin 14) :
    (s.writePayload v).payR[j.val] = if j.val = s.cnt.toNat then v else s.payR[j.val] := by
  simp [Vector.getElem_setIfInBounds, eq_comm]

/-- Settles O12: the row delivers its byte to the payload, and the count is the field's last at `N(kind_r) - 1` (R122). -/
theorem payloadByteIsStored : Obligations.PayloadByteIsStored := by
  unfold Obligations.PayloadByteIsStored
  intro s v hpayload hopen
  have hexec : exec (.payloadByte v) s = .next (s.deliver v) :=
    exec_of_decodeLogical (by rw [hpayload]; rfl) (by simpa [hpayload, fieldLen] using hopen)
  have hlast : s.cnt.toNat + 1 = fieldLen s.phase s.kindR ↔ s.cnt.toNat = payloadLen s.kindR - 1 := by
    rw [hpayload, fieldLen]
    omega
  refine ⟨(s.writePayload v).payR, s.writePayload_getElem v, ?_⟩
  rw [hexec]
  by_cases hemits : s.cnt.toNat = payloadLen s.kindR - 1
  · rw [if_pos hemits, State.deliver_last (hlast.2 hemits), State.storeByte_of_payload hpayload]
    simp [State.writePayload, hpayload, nextPhase]
  · rw [if_neg hemits, State.deliver_eq_storeNext (mt hlast.1 hemits), State.storeNext,
      State.storeByte_of_payload hpayload]
    rfl

/-! ### The six bytes of a timestamp (R150, R152) -/

theorem execAll_cons_of_exec {i : Instr} {s u : State} (h : exec i s = .next u) (is : List Instr) :
    execAll (i :: is) s = execAll is u := by
  simp [execAll, h]

/-- As many TS_BYTE rows as the timestamp misses bytes deliver these, one after the other. -/
theorem execAll_tsBytes {s : State} {vs : List Byte} (hts : s.phase = .ts) (hlen : s.cnt.toNat + vs.length ≤ 6) :
    execAll (vs.map .tsByte) s = .next (s.deliverAll vs) := by
  induction vs generalizing s with
  | nil => rfl
  | cons v vs ih =>
    rw [List.length_cons] at hlen
    have hexec : exec (.tsByte v) s = .next (s.deliver v) :=
      exec_of_decodeLogical (by rw [hts]; rfl) (by rw [hts, fieldLen]; omega)
    rw [List.map_cons, execAll_cons_of_exec hexec, State.deliverAll_cons]
    cases vs with
    | nil => rfl
    | cons w ws =>
      rw [List.length_cons] at hlen
      have hinside : s.cnt.toNat + 1 ≠ fieldLen s.phase s.kindR := by rw [hts, fieldLen]; omega
      have hsucc := count_succ_toNat s.cnt (by omega)
      rw [State.deliver_eq_storeNext hinside]
      refine ih (by simpa [State.storeNext] using hts) ?_
      simp only [State.storeNext, hsucc, List.length_cons]
      omega

/-- The six bytes of a timestamp that is written out byte by byte are these bytes. -/
theorem timestampBytes_append (b0 b1 b2 b3 b4 b5 : Byte) :
    timestampBytes (b0 ++ b1 ++ b2 ++ b3 ++ b4 ++ b5) = [b0, b1, b2, b3, b4, b5] := by
  simp [timestampBytes, extract_append_byte_low, extract_append_byte_high]

/-- Settles O49: the six rows deliver the bytes of the timestamp that is their concatenation. -/
theorem sixBytesMakeTheTimestamp : Obligations.SixBytesMakeTheTimestamp := by
  unfold Obligations.SixBytesMakeTheTimestamp
  intro s b0 b1 b2 b3 b4 b5 hts hcnt
  have hrows : execAll ([b0, b1, b2, b3, b4, b5].map .tsByte) s = .next (s.deliverAll [b0, b1, b2, b3, b4, b5]) :=
    execAll_tsBytes hts (by simp [hcnt])
  rw [← timestampBytes_append, State.deliverAll_timestamp hts hcnt, timestampBytes_append] at hrows
  refine ⟨_, hrows, ?_, ?_⟩
  · rw [← hcnt]
  · simp only [append_byte_toNat]
    omega

end Sys2Proof.Machine

/-! ## The payload bytes that a frame has not filled

Each row of a step keeps the unfilled part of the payload buffer at 0 (R158, R170), so every emitted frame has a zero tail. -/

namespace Sys2Proof.Machine

/-! ### What the shared operations keep -/

/-- The payload buffer is spoken of only while a data frame is read or waits. -/
theorem State.unusedPayloadZero_outside {s : State} (hfree : s.outValidR = false)
    (hphase : ¬(s.phase = .ts ∨ s.phase = .level ∨ s.phase = .payload)) : s.unusedPayloadZero := by
  obtain ⟨hts, hlevel, hpayload⟩ : s.phase ≠ .ts ∧ s.phase ≠ .level ∧ s.phase ≠ .payload := by simpa using hphase
  simp [State.unusedPayloadZero, hfree, hts, hlevel, hpayload]

/-- The classifier clears the payload buffer (R170). -/
theorem State.classify_unusedPayloadZero {s : State} (hfree : s.outValidR = false) (b : Byte) :
    (s.classify b).unusedPayloadZero := by
  have hzero : (s.classify b).zeroFrom 0 := by
    intro j _
    simp
  exact ⟨fun _ => hzero, by simp, by simp [hfree]⟩

/-- A payload byte goes to the first byte that is not filled (R157). -/
theorem State.writePayload_zeroFrom {s : State} (h : s.zeroFrom s.cnt.toNat) (v : Byte) :
    (s.writePayload v).zeroFrom (s.cnt.toNat + 1) := by
  intro j hj
  rw [s.writePayload_getElem, if_neg (by omega)]
  exact h j (by omega)

/-- A delivery fills at most the byte at the count, and counts it; the last byte of a payload leaves just the bytes that the
kind does not use. -/
theorem ControlInv.deliver_unusedPayloadZero {s : State} (hs : ControlInv s) (hfield : isFieldPhase s.phase = true)
    (hzero : s.unusedPayloadZero) (v : Byte) : (s.deliver v).unusedPayloadZero := by
  have hfree := hs.free_of_fieldPhase hfield
  have hin := hs.counts hfield
  obtain ⟨hopen, hfilled, -⟩ := hzero
  cases hp : s.phase with
  | ts =>
    have hall : s.zeroFrom 0 := hopen (.inl hp)
    obtain ⟨-, heq⟩ | ⟨-, heq⟩ := s.deliver_cases v <;> rw [heq, State.storeByte_of_ts hp]
    · exact ⟨fun _ => hall, by simp [hp], by simp [hfree]⟩
    · exact ⟨fun _ => hall, by simp [hp, nextPhase], by simp [hp, hfree]⟩
  | level =>
    have hall : s.zeroFrom 0 := hopen (.inr hp)
    have hlast : s.cnt.toNat + 1 = fieldLen s.phase s.kindR := by
      rw [hp, fieldLen] at hin ⊢
      omega
    rw [State.deliver_last hlast, State.storeByte_of_level hp]
    exact ⟨by simp [hp, nextPhase], fun _ => hall, by simp [hp, hfree]⟩
  | payload =>
    have hrest : (s.writePayload v).zeroFrom (s.cnt.toNat + 1) := State.writePayload_zeroFrom (hfilled hp) v
    obtain ⟨-, heq⟩ | ⟨hlast, heq⟩ := s.deliver_cases v <;> rw [heq, State.storeByte_of_payload hp]
    · have hcnt := hs.cntLt
      rw [← count_succ_toNat s.cnt (by omega)] at hrest
      exact ⟨by simp [hp], fun _ => hrest, by simp [hfree]⟩
    · rw [hlast, hp, fieldLen] at hrest
      exact ⟨by simp [hp, nextPhase], by simp [hp, nextPhase], fun _ => hrest⟩
  | ident =>
    obtain ⟨-, heq⟩ | ⟨-, heq⟩ := s.deliver_cases v <;> rw [heq]
    · exact State.unusedPayloadZero_outside (by simp [hfree]) (by simp [hp])
    · exact State.unusedPayloadZero_outside (by simp [hp, hfree]) (by simp [hp, nextPhase])
  | idle | marker | done | error => simp [hp, isFieldPhase] at hfield

/-! ### Every row of a step -/

/-- A row that leaves `s` for a phase in which no payload is filled, while no frame waits. -/
theorem State.unusedPayloadZero_of_runRow {s after t : State} {c : Bool} (h : runRow c after = .next t)
    (hc : c = true → s.outValidR = false) (hwaits : after.outValidR = s.outValidR)
    (hphase : ¬(after.phase = .ts ∨ after.phase = .level ∨ after.phase = .payload)) : t.unusedPayloadZero := by
  obtain ⟨hcontext, rfl⟩ := (runRow_eq_next_iff _ _ _).1 h
  exact State.unusedPayloadZero_outside (hwaits.trans (hc hcontext)) hphase

theorem State.unusedPayloadZero_of_classifyRow {s t : State} {b : Byte}
    (h : runRow (s.takesIn .marker) (s.classify b).takeByte = .next t) : t.unusedPayloadZero := by
  obtain ⟨hcontext, rfl⟩ := (runRow_eq_next_iff _ _ _).1 h
  obtain ⟨hfree, -⟩ := (s.takesIn_eq_true_iff _).1 hcontext
  exact State.classify_unusedPayloadZero hfree b

theorem ControlInv.unusedPayloadZero_of_deliverRow {s t : State} {e : Esc} {v : Byte} (hs : ControlInv s)
    (hzero : s.unusedPayloadZero) (h : deliverRow (s.takesField e) v s = .next t) : t.unusedPayloadZero := by
  obtain ⟨hcontext, -, rfl⟩ := (deliverRow_eq_next_iff _ _ _ _).1 h
  obtain ⟨-, hfield, -⟩ := (s.takesField_eq_true_iff _).1 hcontext
  exact (hs.withEsc hfield .normal).takeByte.deliver_unusedPayloadZero hfield hzero v

/-- Every row that a step can perform keeps the unfilled part of the payload buffer at 0 (R158). -/
theorem exec_keeps_unusedPayloadZero {i : Instr} {s t : State} (hi : (rowOf i).format ≠ .logicalByte)
    (h : exec i s = .next t) (hs : ControlInv s) (hzero : s.unusedPayloadZero) : t.unusedPayloadZero := by
  have hfree_of_takesIn {p : Phase} (hc : s.takesIn p = true) : s.outValidR = false :=
    ((s.takesIn_eq_true_iff p).1 hc).1
  have hfree_of_takesField {e : Esc} (hc : s.takesField e = true) : s.outValidR = false :=
    ((s.takesField_eq_true_iff e).1 hc).1
  cases i with
  | lead | leadBad | markId | markBad | endClean =>
    exact State.unusedPayloadZero_of_runRow h hfree_of_takesIn rfl (by simp)
  | fieldEscBad => exact State.unusedPayloadZero_of_runRow h hfree_of_takesField rfl (by simp)
  | endTrunc =>
    refine State.unusedPayloadZero_of_runRow h (fun hcontext => ?_) rfl (by simp)
    obtain ⟨hready, -⟩ := (Bool.and_eq_true _ _).mp hcontext
    exact (s.inReady_eq_true_iff.1 hready).2
  | markAc | markSs | markSl => exact State.unusedPayloadZero_of_classifyRow h
  | fieldLiteral | fieldEscClose => exact hs.unusedPayloadZero_of_deliverRow hzero h
  | fieldEscOpen =>
    obtain ⟨-, rfl⟩ := (runRow_eq_next_iff _ _ _).1 h
    exact hzero
  | tsByte | levelByte | payloadByte | identByte => exact absurd rfl hi
  | take =>
    obtain ⟨hwaits, rfl⟩ := (runRow_eq_next_iff _ _ _).1 h
    have hidle : s.phase = .idle := hs.emits hwaits
    exact State.unusedPayloadZero_outside rfl (by simp [hidle])
  | wait => cases h; exact hzero
  | reset => cases h; exact State.unusedPayloadZero_outside rfl (by simp)

/-- Settles O36: a step performs a row that is no logical-byte row, and each of these keeps the bytes at 0. -/
theorem everyStepKeepsUnusedPayloadZero : Obligations.EveryStepKeepsUnusedPayloadZero := by
  unfold Obligations.EveryStepKeepsUnusedPayloadZero
  intro s t hinv hzero hstep
  have hs : ControlInv s.advance := (s.inv_iff.1 hinv).1.advance
  obtain ⟨-, hexec⟩ := (step_eq_next_iff_eventRow s t).1 hstep
  exact exec_keeps_unusedPayloadZero (eventRow_not_logicalByte _ _) hexec hs hzero

/-- Settles O38: the state after reset has the invariants and an empty payload buffer, and every step keeps both. -/
theorem emittedFramesHaveZeroTail : Obligations.EmittedFramesHaveZeroTail := by
  unfold Obligations.EmittedFramesHaveZeroTail
  intro c pins n t hrun hwaits
  have hkept : ∀ s : State, s.inv ∧ s.unusedPayloadZero → ∃ u, step s = .next u ∧ u.inv ∧ u.unusedPayloadZero := by
    rintro s ⟨hinv, hzero⟩
    obtain ⟨u, hstep, hu⟩ := everyStepKeepsR49 s hinv
    exact ⟨u, hstep, hu, everyStepKeepsUnusedPayloadZero s u hinv hzero hstep⟩
  obtain ⟨u, hrun', -, -, -, htail⟩ :=
    run_invariant hkept n { State.resetWith c with pins := pins } (resetStateHasTheInvariants c)
  obtain rfl : u = t := Host.Outcome.next.inj (hrun'.symm.trans hrun)
  exact htail hwaits

end Sys2Proof.Machine

/-! ## The captured data steers nothing

The other registers after a step are a function of the other registers before it (R153, R154, R156). -/

namespace Sys2Proof.Machine

/-- The state without the data that a frame captures: what `State.sameControl` compares, with the samples to come
(`State.control_eq_iff`). -/
def State.control (s : State) : State :=
  { s with tsR := 0, levelR := 0, payR := Vector.replicate 14 0 }

theorem State.control_eq_iff (s t : State) : s.control = t.control ↔ s.sameControl t ∧ s.pins = t.pins := by
  simp [State.control, State.mk.injEq, and_assoc]

/-- Storing a logical byte writes captured data only. -/
theorem State.storeByte_control (s : State) (v : Byte) : (s.storeByte v).control = s.control := by
  obtain ⟨-, h⟩ | ⟨-, h⟩ | ⟨-, h⟩ | ⟨-, -, -, h⟩ := s.storeByte_cases v <;> rw [h] <;> rfl

theorem State.countByte_control (s : State) : s.countByte.control = s.control.countByte := by
  by_cases hlast : s.cnt.toNat + 1 = fieldLen s.phase s.kindR
  · rw [s.countByte_last hlast, s.control.countByte_last hlast]
    rfl
  · rw [s.countByte_inside hlast, s.control.countByte_inside hlast]
    rfl

theorem State.countByte_control_congr {s t : State} (h : s.control = t.control) :
    s.countByte.control = t.countByte.control := by
  rw [s.countByte_control, t.countByte_control, h]

/-- What a delivery leaves in the other registers depends on these alone. -/
theorem State.deliver_control_congr {s t : State} (h : s.control = t.control) (v : Byte) :
    (s.deliver v).control = (t.deliver v).control :=
  State.countByte_control_congr (by rw [s.storeByte_control, t.storeByte_control, h])

theorem runRow_control {c : Bool} {after after' t : State} (h : runRow c after = .next t)
    (hsame : after'.control = after.control) : ∃ u, runRow c after' = .next u ∧ u.control = t.control := by
  obtain ⟨hc, rfl⟩ := (runRow_eq_next_iff _ _ _).1 h
  exact ⟨_, runRow_of_context _ _ hc, hsame⟩

theorem deliverRow_control {c : Bool} {v : Byte} {s t : State} (h : deliverRow c v s = .next t) :
    ∃ u, deliverRow c v s.control = .next u ∧ u.control = t.control := by
  obtain ⟨hc, hcnt, rfl⟩ := (deliverRow_eq_next_iff _ _ _ _).1 h
  exact ⟨_, (deliverRow_eq_next_iff _ _ _ _).2 ⟨hc, hcnt, rfl⟩, State.deliver_control_congr (by rfl) v⟩

/-- A row performed without the captured data leaves the other registers as it does with them. -/
theorem exec_control {i : Instr} {s t : State} (h : exec i s = .next t) :
    ∃ u, exec i s.control = .next u ∧ u.control = t.control := by
  cases i with
  | fieldLiteral | fieldEscClose => exact deliverRow_control h
  | tsByte | levelByte | payloadByte | identByte => exact runRow_control h (State.countByte_control_congr rfl)
  | wait | reset => cases h; exact ⟨_, rfl, rfl⟩
  | _ => exact runRow_control h rfl

/-- The row of a step, too, is selected without the captured data. -/
theorem step_control {s t : State} (h : step s = .next t) :
    ∃ u, exec (eventRow s.control.context s.control.event?) s.control.advance = .next u ∧ u.control = t.control := by
  obtain ⟨-, hexec⟩ := (step_eq_next_iff_eventRow s t).1 h
  exact exec_control (s := s.advance) hexec

/-- Settles O47: the other registers after a step are a function of those before it and of the inputs. -/
theorem capturedDataNeverSteersTheBlock : Obligations.CapturedDataNeverSteersTheBlock := by
  unfold Obligations.CapturedDataNeverSteersTheBlock
  intro s t s' t' hsame hpins hs ht
  have hstart : s.control = t.control := (s.control_eq_iff t).2 ⟨hsame, hpins⟩
  obtain ⟨u, hu, hus⟩ := step_control hs
  obtain ⟨w, hw, hwt⟩ := step_control ht
  rw [hstart, hw] at hu
  obtain rfl : w = u := Host.Outcome.next.inj hu
  obtain ⟨hcontrol, -⟩ := (s'.control_eq_iff t').1 (hus.symm.trans hwt)
  exact hcontrol

end Sys2Proof.Machine

/-! ## The frame on the output ports

A waiting frame is what the ports carry (R28, R180). It comes from the last byte of a payload (R183), from the wire bytes of a frame as
that frame (R185), and it stays until the consumer takes it (R181, R182). -/

namespace Sys2Proof.Machine

/-! ### Reading the ports -/

theorem frameKind?_eq_some_iff (k : Kind) (fk : FrameKind) : frameKind? k = some fk ↔ k = kindOfFrame fk := by
  cases k <;> cases fk <;> simp [frameKind?, kindOfFrame]

theorem State.frame?_eq_some_iff (s : State) (f : DecodedFrame) :
    s.frame? = some f ↔
      s.outValidR = true ∧ s.kindR = kindOfFrame f.kind ∧ s.tsR = f.timestamp ∧ s.levelR = f.signalLevel ∧
        s.payR.toList.take (payloadLen s.kindR) = f.payload := by
  obtain ⟨k, ts, level, payload⟩ := f
  cases hwaits : s.outValidR
  · simp [State.frame?, hwaits]
  · simp [State.frame?, hwaits, ← frameKind?_eq_some_iff]

/-- A waiting frame with a kind has that kind's payload length (R183). -/
theorem State.exists_frame?_wellFormed {s : State} (hwaits : s.outValidR = true) (hkind : s.kindR ≠ .unset) :
    ∃ f, s.frame? = some f ∧ f.wellFormed = true := by
  obtain ⟨fk, hfk⟩ : ∃ fk, s.kindR = kindOfFrame fk := by
    cases hk : s.kindR with
    | unset => exact absurd hk hkind
    | modeAC => exact ⟨.modeAC, rfl⟩
    | modeSShort => exact ⟨.modeSShort, rfl⟩
    | modeSLong => exact ⟨.modeSLong, rfl⟩
  refine ⟨⟨fk, s.tsR, s.levelR, s.payR.toList.take (payloadLen s.kindR)⟩, ?_, ?_⟩
  · exact (s.frame?_eq_some_iff _).2 ⟨hwaits, hfk, rfl, rfl, rfl⟩
  · simp [DecodedFrame.wellFormed, ← hfk, payloadLen_le]

/-- The payload port shows the bytes of the waiting frame from the high end on (R28). -/
theorem State.outPayload_of_frame? {s : State} {f : DecodedFrame} (hframe : s.frame? = some f) (j : Nat)
    (hj : j < f.payload.length) : s.outPayload.extractLsb' (104 - 8 * j) 8 = f.payload[j] := by
  obtain ⟨-, -, -, -, hpayload⟩ := (s.frame?_eq_some_iff f).1 hframe
  have hbound : j < 14 := by
    have hle := payloadLen_le s.kindR
    rw [← hpayload, List.length_take] at hj
    omega
  rw [s.outPayload_extract ⟨j, hbound⟩]
  simp [← hpayload]

/-! ### The bytes of a frame -/

/-- Settles O53: the wire bytes of the frame fill its fields, and the ports carry the frame that waits then. -/
theorem roundTripOfOneFrame : Obligations.RoundTripOfOneFrame := by
  unfold Obligations.RoundTripOfOneFrame
  intro f s ps rest hf hinv hidle hfree hoffers hpins
  have hs : AtBoundary s := ⟨hinv, hidle, hfree⟩
  have hoffered : Offered rest (StreamFrame.data f).bytes s.pins := hpins ▸ offered_of_offers hoffers
  have hruns := runsTo_frame (x := .data f) hs hf hoffered
  rw [(dataFrame_fills s hf).2] at hruns
  have hframe := frame?_completed s hf (StreamFrame.data f).bytes.length rest
  refine ⟨_, hruns.run, rfl, rfl, rfl, rfl, rfl, rfl, ?_, State.outPayload_of_frame? hframe, hframe, hruns.taken, rfl⟩
  exact (State.outLen_toNat _).trans (DecodedFrame.payload_length hf).symm

/-! ### Everything a step without reset can do -/

/-- All that a step without reset can do, in a state with the invariants. -/
inductive QuietStep (s t : State) : Prop where
  /-- A byte is taken (R40). -/
  | accepted (accepts : s.accepts = true) (after : t = acceptByte s.advance s.sample.inData)
  /-- The stream ends, at a boundary or inside a frame (R41). -/
  | finished (ends : s.ends = true) (terminal : t.phase.terminal = true) (waits : t.outValidR = s.outValidR)
  /-- The frame is handed over (R42). -/
  | taken (takes : s.takes = true) (after : t = { s.advance with outValidR := false })
  /-- Nothing happens (R44). -/
  | waited (event : s.event? = none) (after : t = s.advance)

theorem ControlInv.quietStep {s t : State} (hs : ControlInv s) (hr : s.sample.rst = false) (h : step s = .next t) :
    QuietStep s t := by
  obtain ⟨-, hexec⟩ := (step_eq_next_iff_eventRow s t).1 h
  obtain ⟨-, hr'⟩ | ⟨-, haccepts⟩ | ⟨he, hends⟩ | ⟨he, htakes⟩ | ⟨he, -⟩ := s.event?_cases
  · simp [hr] at hr'
  · rw [hs.step_eq_stepRule, stepRule_of_accepts haccepts] at h
    exact .accepted haccepts (Host.Outcome.next.inj h).symm
  · obtain ⟨-, hready, -⟩ := s.ends_eq_true_iff.1 hends
    rw [he] at hexec
    obtain rfl := Host.Outcome.next.inj ((exec_endRow (s := s.advance) hready).symm.trans hexec)
    by_cases hidle : s.phase = .idle <;>
      exact .finished hends (by simp [hidle, Phase.terminal]) (by simp [hidle])
  · rw [he] at hexec
    obtain ⟨-, ht⟩ := (runRow_eq_next_iff _ _ _).1 hexec
    exact .taken htakes ht
  · rw [he] at hexec
    exact .waited he (Host.Outcome.next.inj hexec).symm

/-! ### The step in which a frame appears (R180, R183) -/

/-- Only the delivery of a payload's last byte raises `out_valid_r` (R123, R129). -/
theorem State.lastPayloadByte_of_deliver {s : State} {v : Byte} (hfree : s.outValidR = false)
    (hwaits : (s.deliver v).outValidR = true) : s.phase = .payload ∧ s.cnt.toNat + 1 = payloadLen s.kindR := by
  obtain ⟨-, heq⟩ | ⟨hlast, heq⟩ := s.deliver_cases v <;> rw [heq] at hwaits
  · simp [hfree] at hwaits
  · have hpayload : s.phase = .payload := by simpa [hfree] using hwaits
    exact ⟨hpayload, by simpa [hpayload, fieldLen] using hlast⟩

/-- Of the bytes that can be taken, only the last of a payload raises `out_valid_r`; it keeps the kind. -/
theorem lastPayloadByte_of_acceptByte {s : State} {b : Byte} (hfree : s.outValidR = false)
    (hwaits : (acceptByte s b).outValidR = true) :
    s.phase = .payload ∧ s.cnt.toNat + 1 = payloadLen s.kindR ∧ (acceptByte s b).kindR = s.kindR := by
  cases hp : s.phase with
  | idle =>
    rw [acceptByte_of_idle hp] at hwaits
    split_ifs at hwaits <;> simp [hfree] at hwaits
  | marker =>
    rw [acceptByte_of_marker hp] at hwaits
    split_ifs at hwaits <;> simp [hfree] at hwaits
  | done | error => simp [acceptByte, hp, hfree] at hwaits
  | ts | level | payload | ident =>
    rw [acceptByte_of_fieldPhase (by rw [hp]; rfl)] at hwaits ⊢
    cases hdecode : escDecode s.esc b with
    | hold | bad => simp [hdecode, hfree] at hwaits
    | emit e v =>
      rw [hdecode] at hwaits
      obtain ⟨hpayload, hlast⟩ := State.lastPayloadByte_of_deliver (s := ({ s with esc := e }).takeByte) hfree hwaits
      obtain ⟨-, -, hkind, -⟩ := ({ s with esc := e }).takeByte.deliver_frame v
      exact ⟨hp.symm.trans hpayload, hlast, hkind⟩

theorem ControlInv.step_reset {s : State} (hs : ControlInv s) (hr : s.sample.rst = true) :
    step s = .next s.advance.loadReset := by
  simp [hs.step_eq_stepRule, stepRule, hr]

/-- Settles O45: of all that a step can do, only a taken byte raises `out_valid_r`; the state it leaves has the invariants. -/
theorem outValidRisesWithTheLastPayloadByte : Obligations.OutValidRisesWithTheLastPayloadByte := by
  unfold Obligations.OutValidRisesWithTheLastPayloadByte
  intro s t hinv hstep hfree hwaits
  have hs : ControlInv s := (s.inv_iff.1 hinv).1
  have ht : ControlInv t := step_keeps_controlInv hstep hs
  have hr : s.sample.rst = false := by
    by_contra hr
    have hreset := hs.step_reset (by simpa using hr)
    obtain rfl := Host.Outcome.next.inj (hreset.symm.trans hstep)
    simp at hwaits
  cases hs.quietStep hr hstep with
  | accepted haccepts hafter =>
    subst hafter
    obtain ⟨hpayload, hlast, hkind⟩ := lastPayloadByte_of_acceptByte (s := s.advance) hfree hwaits
    exact ⟨haccepts, hpayload, hlast, hs.payloadKind hpayload, hkind, ht.emits hwaits,
      State.exists_frame?_wellFormed hwaits (ht.frameKind hwaits)⟩
  | finished _ _ hkept => simp [hkept, hfree] at hwaits
  | taken _ hafter => simp [hafter] at hwaits
  | waited _ hafter => simp [hafter, hfree] at hwaits

/-! ### The frame that waits (R181, R182) -/

/-- While a frame waits and the consumer does not take it, a step without reset changes no register. -/
theorem ControlInv.step_of_notReady {s : State} (hs : ControlInv s) (hwaits : s.outValidR = true)
    (hr : s.sample.rst = false) (hout : s.sample.outReady = false) : step s = .next s.advance := by
  simp [hs.step_eq_stepRule, stepRule, hr, hwaits, hout]

/-- Settles O44: each step leaves the registers as they are, and the ports show nothing else. -/
theorem frameWaitsForTheConsumer : Obligations.FrameWaitsForTheConsumer := by
  unfold Obligations.FrameWaitsForTheConsumer
  intro n
  induction n with
  | zero => exact fun s _ _ _ => ⟨s, rfl, rfl, rfl, rfl⟩
  | succ n ih =>
    intro s hinv hwaits hports
    obtain ⟨⟨hr, hout⟩, hlater⟩ : (s.sample.rst = false ∧ s.sample.outReady = false) ∧
        ∀ p ∈ s.advance.pins.take n, p.rst = false ∧ p.outReady = false := by
      cases hpins : s.pins with
      | nil => simp [State.sample, hpins, Ports.idle]
      | cons p ps => simpa [State.sample, hpins] using hports
    have hstep := (s.inv_iff.1 hinv).1.step_of_notReady hwaits hr hout
    obtain ⟨t, hrun, houtputs, hframe, htaken⟩ := ih s.advance (step_keeps_inv hstep hinv) hwaits hlater
    refine ⟨t, (run_succ_eq_next_iff n s t).2 ⟨_, hstep, hrun⟩, houtputs, hframe, ?_⟩
    have haccepts : s.accepts = false := by simp [State.accepts, State.inReady, hwaits]
    simp [takenBytes_succ_of_step hstep, haccepts, htaken]

end Sys2Proof.Machine

/-! ## Streams under every schedule

A source that always offers and a consumer that is always ready see a stream through to `DONE` (R186). Under any other schedule the
frames that the consumer is given are the same function of the bytes that the block has taken. -/

namespace Sys2Proof.Machine

/-! ### A stream with no waits -/

/-- The stream ends at a frame boundary (R131). -/
theorem runsTo_endClean {s : State} (hs : AtBoundary s) (hends : s.ends = true) :
    RunsTo 1 s { s.advance with phase := .done } [] [] := by
  obtain ⟨hr, -, hvalid, heos⟩ := s.ends_eq_true_iff.1 hends
  have hstep : step s = .next { s.advance with phase := .done } := by
    rw [hs.control.step_eq_stepRule]
    simp [stepRule, hr, hvalid, heos, hs.idle, hs.free]
  obtain ⟨haccepts, -, htakes⟩ := eventsExcludeEachOther s
  simpa [show s.accepts = false by simpa [hends] using haccepts, show s.takes = false by simpa [hends] using htakes]
    using RunsTo.of_step hstep

/-- One step a byte, and one for each hand-over (R239). -/
theorem streamSteps_length (xs : List StreamFrame) :
    (streamSteps xs).length = (streamBytes xs).length + (dataFrames xs).length := by
  induction xs with
  | nil => rfl
  | cons x xs ih =>
    cases x with
    | data f =>
      simp only [streamSteps, streamBytes, dataFrames, StreamFrame.bytes, List.length_append, List.length_map,
        List.length_cons, ih]
      omega
    | ident body =>
      simp only [streamSteps, streamBytes, dataFrames, StreamFrame.bytes, List.length_append, List.length_map, ih]
      omega

/-- A stream with no waits, and then `End`: its frames are handed over in order, and the block stands in `DONE`. -/
theorem runsTo_streamAndEnd {xs : List StreamFrame} {s : State} {rest : List Ports} (hs : AtBoundary s)
    (hxs : ∀ x ∈ xs, x.wellFormed = true) (hpins : s.pins = streamSteps xs ++ offerEnd :: rest) :
    ∃ t, RunsTo ((streamSteps xs).length + 1) s t (streamBytes xs) (dataFrames xs) ∧ t.phase = .done ∧
      t.outValidR = false := by
  obtain ⟨u, hstream, hu, hrest⟩ := runsTo_stream hs hxs hpins
  have hends : u.ends = true := by
    simp [State.ends, State.sample, State.inReady, isParsingPhase, hu.idle, hu.free, hrest, offerEnd, Ports.idle]
  have hruns := hstream.trans (runsTo_endClean hu hends)
  simp only [List.append_nil] at hruns
  exact ⟨_, hruns, rfl, hu.free⟩

/-- Settles O55: the stream's frames are handed over one by one, and `End` comes at a boundary; `off_r` counts the bytes taken. -/
theorem streamDeliversItsFramesInOrder : Obligations.StreamDeliversItsFramesInOrder := by
  unfold Obligations.StreamDeliversItsFramesInOrder
  intro xs s rest hxs hinv hidle hfree hpins
  have hs : AtBoundary s := ⟨hinv, hidle, hfree⟩
  obtain ⟨t, hruns, hdone, hfree'⟩ := runsTo_streamAndEnd hs hxs hpins
  have ht : ControlInv t := (t.inv_iff.1 (hruns.keeps_inv hinv)).1
  have hnoReset : ∀ p ∈ s.pins.take ((streamSteps xs).length + 1), p.rst = false := by
    rw [hpins, List.take_length_add_append, List.take_one, List.forall_mem_append]
    exact ⟨streamSteps_noReset xs, by simp [offerEnd, Ports.idle]⟩
  obtain ⟨-, hoff⟩ := run_offR hs.fit hnoReset hruns.run
  rw [hruns.taken] at hoff
  obtain ⟨hcode, -⟩ := ht.record (by simp [hdone])
  exact ⟨streamSteps_length xs, hruns.frames, t, hruns.run, hdone, by simp [State.outputs, State.done, hdone], hfree',
    hcode, hoff⟩

/-! ### The frames in a list of bytes -/

/-- A block takes a byte without regard to the samples to come. -/
theorem acceptByte_registers (s : State) (b : Byte) : acceptByte s.registers b = (acceptByte s b).registers := by
  cases hp : s.phase with
  | idle =>
    rw [acceptByte_of_idle hp, acceptByte_of_idle (s := s.registers) hp]
    split_ifs <;> rfl
  | marker =>
    rw [acceptByte_of_marker hp, acceptByte_of_marker (s := s.registers) hp]
    split_ifs <;> rfl
  | done | error => simp [acceptByte, State.registers, hp]
  | ts | level | payload | ident =>
    have hfield : isFieldPhase s.phase = true := by rw [hp]; rfl
    rw [acceptByte_of_fieldPhase hfield, acceptByte_of_fieldPhase (s := s.registers) hfield]
    rw [show s.registers.esc = s.esc from rfl]
    cases escDecode s.esc b with
    | hold | bad => rfl
    | emit e v => exact State.deliver_registers ({ s with esc := e }).takeByte v

/-- The frames of a block that takes the bytes `bs` from `s` on and hands over each frame before the next byte: what a consumer is
given under every schedule (`delivered_append_waiting`). -/
def framesOf (s : State) : List Byte → List DecodedFrame
  | [] => s.frame?.toList
  | b :: bs => s.frame?.toList ++ framesOf (acceptByte { s with outValidR := false } b) bs

theorem framesOf_registers (s : State) (bs : List Byte) : framesOf s.registers bs = framesOf s bs := by
  induction bs generalizing s with
  | nil => rfl
  | cons b bs ih =>
    have hnext := acceptByte_registers { s with outValidR := false } b
    rw [framesOf, framesOf, ← ih (acceptByte { s with outValidR := false } b), ← hnext]
    rfl

theorem framesOf_advance (s : State) (bs : List Byte) : framesOf s.advance bs = framesOf s bs :=
  (framesOf_registers s.advance bs).symm.trans (framesOf_registers s bs)

theorem State.frame?_of_free {s : State} (hfree : s.outValidR = false) : s.frame? = none := by
  simp [State.frame?, hfree]

/-- The waiting frame comes first, whatever bytes follow it. -/
theorem framesOf_handOver (s : State) (bs : List Byte) :
    framesOf s bs = s.frame?.toList ++ framesOf { s with outValidR := false } bs := by
  cases bs <;> simp [framesOf, State.frame?_of_free]

/-- A byte is taken only when no frame waits. -/
theorem framesOf_accept {s : State} (hfree : s.outValidR = false) (b : Byte) (bs : List Byte) :
    framesOf s (b :: bs) = framesOf (acceptByte s b) bs := by
  rw [framesOf, State.frame?_of_free hfree, ← hfree]
  rfl

theorem delivered_succ_of_step {s u : State} (h : step s = .next u) (n : Nat) :
    delivered (n + 1) s = (if s.takes then s.frame?.toList else []) ++ delivered n u := by
  simp [delivered, h]

/-- No byte is taken in `DONE` and `ERROR`, however long a run without reset (R134). -/
theorem takenBytes_of_terminal {n : Nat} {s t : State} (hterminal : s.phase.terminal = true)
    (hr : ∀ p ∈ s.pins.take n, p.rst = false) (h : core.run n s = .next t) : takenBytes n s = [] := by
  induction n generalizing s with
  | zero => rfl
  | succ n ih =>
    obtain ⟨u, hstep, hrun⟩ := (run_succ_eq_next_iff n s t).1 h
    obtain ⟨hnow, hlater⟩ := State.noReset_succ hr
    obtain ⟨hphase, -, haccepts, -⟩ :=
      onlyResetLeavesTerminalPhases s u ((terminal_eq_true_iff _).1 hterminal) hnow hstep
    rw [takenBytes_succ_of_step hstep, ih (by rwa [hphase]) (by rwa [step_pins hstep]) hrun]
    simp [haccepts]

/-- Over a run without reset, under whatever schedule, the frames that were handed over and the one that still waits are the frames
of the bytes that were taken (R69, R186). -/
theorem delivered_append_waiting {n : Nat} {s t : State} (hs : ControlInv s) (hr : ∀ p ∈ s.pins.take n, p.rst = false)
    (h : core.run n s = .next t) : delivered n s ++ t.frame?.toList = framesOf s (takenBytes n s) := by
  induction n generalizing s with
  | zero => cases h; rfl
  | succ n ih =>
    obtain ⟨u, hstep, hrun⟩ := (run_succ_eq_next_iff n s t).1 h
    obtain ⟨hnow, hlater⟩ := State.noReset_succ hr
    rw [← step_pins hstep] at hlater
    have hrest := ih (step_keeps_controlInv hstep hs) hlater hrun
    obtain ⟨hexclAccept, hexclTake, hexclEnd⟩ := eventsExcludeEachOther s
    rw [delivered_succ_of_step hstep, takenBytes_succ_of_step hstep, List.append_assoc, hrest]
    cases hs.quietStep hnow hstep with
    | accepted haccepts hafter =>
      have htakes : s.takes = false := by simpa [haccepts] using hexclTake
      obtain ⟨-, hready, -⟩ := s.accepts_eq_true_iff.1 haccepts
      obtain ⟨-, hfree⟩ := s.inReady_eq_true_iff.1 hready
      simp only [haccepts, htakes, hafter, if_true, Bool.false_eq_true, if_false, List.nil_append, List.singleton_append]
      rw [← framesOf_advance s, framesOf_accept (s := s.advance) hfree]
    | finished hends hterminal hkept =>
      have haccepts : s.accepts = false := by simpa [hends] using hexclAccept
      have htakes : s.takes = false := by simpa [hends] using hexclEnd
      obtain ⟨-, hready, -⟩ := s.ends_eq_true_iff.1 hends
      obtain ⟨-, hfree⟩ := s.inReady_eq_true_iff.1 hready
      rw [takenBytes_of_terminal hterminal hlater hrun]
      simp [haccepts, htakes, framesOf, State.frame?_of_free hfree, State.frame?_of_free (hkept.trans hfree)]
    | taken htakes hafter =>
      have haccepts : s.accepts = false := by simpa [htakes] using hexclTake
      simp only [haccepts, htakes, hafter, if_true, Bool.false_eq_true, if_false, List.nil_append]
      rw [framesOf_handOver s, ← framesOf_advance { s with outValidR := false }]
      rfl
    | waited hevent hafter =>
      obtain ⟨-, haccepts, -, htakes⟩ := s.event?_eq_none_iff.1 hevent
      simp [haccepts, htakes, hafter, framesOf_advance]

/-- The frames in the wire image of a stream are its data frames, as the run with no waits shows. -/
theorem framesOf_streamBytes {s : State} (hs : AtBoundary s) {xs : List StreamFrame}
    (hxs : ∀ x ∈ xs, x.wellFormed = true) : framesOf s (streamBytes xs) = dataFrames xs := by
  have hdriven : AtBoundary { s with pins := streamSteps xs } := ⟨hs.inv, hs.idle, hs.free⟩
  obtain ⟨t, hruns, ht, -⟩ := runsTo_stream (rest := []) hdriven hxs (by simp)
  have hnoReset : ∀ p ∈ (streamSteps xs).take (streamSteps xs).length, p.rst = false := by
    rw [List.take_length]
    exact streamSteps_noReset xs
  have hframes := delivered_append_waiting hdriven.control hnoReset hruns.run
  rw [hruns.frames, hruns.taken, State.frame?_of_free ht.free] at hframes
  calc framesOf s (streamBytes xs) = framesOf { s with pins := streamSteps xs } (streamBytes xs) :=
        (framesOf_registers s _).symm.trans (framesOf_registers { s with pins := streamSteps xs } _)
    _ = dataFrames xs := by simpa using hframes.symm

/-- Settles O56: what is delivered depends on the bytes taken alone, and in `DONE` no frame waits any more. -/
theorem anyScheduleDeliversTheSameFrames : Obligations.AnyScheduleDeliversTheSameFrames := by
  unfold Obligations.AnyScheduleDeliversTheSameFrames
  intro xs n s t hxs hinv hidle hfree hr hrun htaken hdone
  have hs : AtBoundary s := ⟨hinv, hidle, hfree⟩
  have ht : ControlInv t := (t.inv_iff.1 (RunsTo.keeps_inv ⟨hrun, rfl, rfl⟩ hinv)).1
  have hfree' : t.outValidR = false := by
    by_contra hwaits
    simp [ht.emits (by simpa using hwaits)] at hdone
  have hframes := delivered_append_waiting hs.control hr hrun
  rw [htaken, framesOf_streamBytes hs hxs, State.frame?_of_free hfree'] at hframes
  simpa using hframes

end Sys2Proof.Machine

/-! ## The classifier

The decision of a marker byte (R171), and the row and the outcome of the step that takes it (R126 to R128). -/

namespace Sys2Proof.Machine

/-- The four markers and all other bytes, as the classifier tells them apart (R171). -/
theorem classifyMarker_cases (b : Byte) :
    ((b = markerAc ∨ b = markerSs ∨ b = markerSl) ∧ classifyMarker b = .data (kindOfCode (b.setWidth 2))) ∨
    (b = markerId ∧ classifyMarker b = .identity) ∨
    (¬(b = markerAc ∨ b = markerSs ∨ b = markerSl) ∧ b ≠ markerId ∧ classifyMarker b = .unknown) := by
  by_cases hdata : b = markerAc ∨ b = markerSs ∨ b = markerSl
  · exact .inl ⟨hdata, by obtain rfl | rfl | rfl := hdata <;> rfl⟩
  by_cases hid : b = markerId
  · exact .inr (.inl ⟨hid, by rw [hid]; rfl⟩)
  · obtain ⟨hac, hss, hsl⟩ : b ≠ markerAc ∧ b ≠ markerSs ∧ b ≠ markerSl := by simpa using hdata
    exact .inr (.inr ⟨hdata, hid, by simp [classifyMarker, hac, hss, hsl, hid]⟩)

/-- The classifier's table, marker by marker (R83, R171). -/
theorem classifyMarker_eq (b : Byte) :
    classifyMarker b =
      if b = markerAc then .data .modeAC else if b = markerSs then .data .modeSShort
      else if b = markerSl then .data .modeSLong else if b = markerId then .identity else .unknown := by
  obtain ⟨rfl | rfl | rfl, -⟩ | ⟨rfl, -⟩ | ⟨hdata, hid, hunknown⟩ := classifyMarker_cases b
  case inr.inr =>
    obtain ⟨hac, hss, hsl⟩ : b ≠ markerAc ∧ b ≠ markerSs ∧ b ≠ markerSl := by simpa using hdata
    rw [hunknown, if_neg hac, if_neg hss, if_neg hsl, if_neg hid]
  all_goals rfl

theorem State.fetch_of_marker {s : State} (hmarker : s.phase = .marker) (haccepts : s.accepts = true) :
    s.fetch = .row (decodeMarker s.sample.inData) := by
  rw [s.fetch_eq_eventRow, s.event?_of_accepts haccepts, eventRow, State.context, hmarker]
  rfl

/-- Settles O30: the decoder's row of a marker byte, and the arm of R121 that the classifier's decision names. -/
theorem markerRowsFollowTheClassifier : Obligations.MarkerRowsFollowTheClassifier := by
  unfold Obligations.MarkerRowsFollowTheClassifier
  refine ⟨classifyMarker_eq, ?_, ?_⟩
  · rintro s b hmarker haccepts rfl
    exact State.fetch_of_marker hmarker haccepts
  · rintro s b hmarker haccepts rfl hunused
    have hstep : step s = .next (acceptByte s.advance s.sample.inData) := by
      rw [stepIsRuleR121 s (by simp [State.startsStep, hunused])]
      exact congrArg _ (stepRule_of_accepts haccepts)
    refine ⟨_, hstep, ?_⟩
    rw [acceptByte_of_marker (s := s.advance) hmarker]
    obtain ⟨hdata, hdecision⟩ | ⟨hid, hdecision⟩ | ⟨hdata, hid, hdecision⟩ := classifyMarker_cases s.sample.inData
    · rw [hdecision, if_pos hdata]
      exact ⟨rfl, rfl⟩
    · rw [hdecision, hid]
      exact ⟨rfl, rfl⟩
    · rw [hdecision, if_neg hdata, if_neg hid]
      exact ⟨rfl, rfl⟩

end Sys2Proof.Machine

/-! ## Errors

What a step that enters `ERROR` can have been, and what it leaves (R206, R208); that the record then stays (R209); and that a
wrong byte between two frames costs none of the frames before it (R211). -/

namespace Sys2Proof.Machine

/-! ### A wrong byte after a stream -/

/-- A byte other than `0x1A` at a frame boundary is rejected (R125). -/
theorem runsTo_leadBad {s : State} {b : Byte} {rest : List Ports} (hs : AtBoundary s) (hb : b ≠ escByte)
    (hoffered : Offered rest [b] s.pins) : RunsTo 1 s (s.advance.raiseOnByte .unexpectedLeadByte) [b] [] := by
  have hready : s.inReady = true := s.inReady_eq_true_iff.2 ⟨by simp [hs.idle, Phase.terminal], hs.free⟩
  obtain ⟨haccepts, hdata, -⟩ := hoffered.accepts hready
  have hrun := runsTo_accept hs.control haccepts
  rwa [hdata, acceptByte_of_idle (s := s.advance) hs.idle, if_neg hb] at hrun

/-- Settles O58: the stream's frames are handed over, and the byte after it is rejected at the next boundary, where `off_r` is the
number of the bytes taken. -/
theorem badByteAfterStreamIsPrecise : Obligations.BadByteAfterStreamIsPrecise := by
  unfold Obligations.BadByteAfterStreamIsPrecise
  intro xs b s rest hxs hb hinv hidle hfree hpins
  have hs : AtBoundary s := ⟨hinv, hidle, hfree⟩
  obtain ⟨u, hstream, hu, hrest⟩ := runsTo_stream hs hxs hpins
  have hoffered : Offered rest [b] u.pins := hrest ▸ offered_of_offers (offers_map_offerByte [b])
  have hruns := hstream.trans (runsTo_leadBad hu hb hoffered)
  have hnoReset : ∀ p ∈ s.pins.take (streamSteps xs).length, p.rst = false := by
    rw [hpins, List.take_left]
    exact streamSteps_noReset xs
  obtain ⟨-, hoff⟩ := run_offR hs.fit hnoReset hstream.run
  rw [hstream.taken] at hoff
  exact ⟨by simpa using hruns.frames, _, hruns.run, rfl, rfl, hu.idle, hu.free, hoff⟩

/-! ### Error entry -/

/-- The error kind with which a byte taken in `s` can be rejected (R208). -/
def State.rejectsWith (s : State) (e : ErrCode) : Prop :=
  (s.phase = .idle ∧ e = .unexpectedLeadByte) ∨ (s.phase = .marker ∧ e = .unknownFrameType) ∨
    (isFieldPhase s.phase = true ∧ s.esc = .afterEscape ∧ e = .invalidEscapeSequence)

/-- Only an open escape can fail (R104). -/
theorem esc_of_escDecode_bad {e : Esc} {b : Byte} (h : escDecode e b = .bad) : e = .afterEscape := by
  cases e with
  | normal => by_cases hb : b = escByte <;> simp [escDecode, hb] at h
  | afterEscape => rfl

theorem nextPhase_ne_error {p : Phase} (hfield : isFieldPhase p = true) : nextPhase p ≠ .error := by
  cases p with
  | ts | level | payload | ident => simp [nextPhase]
  | idle | marker | done | error => simp [isFieldPhase] at hfield

/-- A delivered byte is never an error (R123). -/
theorem State.deliver_phase_ne_error {s : State} (hfield : isFieldPhase s.phase = true) (v : Byte) :
    (s.deliver v).phase ≠ .error := by
  obtain ⟨-, heq⟩ | ⟨-, heq⟩ := s.deliver_cases v <;> rw [heq]
  · change (s.storeByte v).phase ≠ .error
    rw [s.storeByte_phase]
    rintro herror
    simp [herror, isFieldPhase] at hfield
  · exact nextPhase_ne_error hfield

/-- A taken byte that leads to `ERROR` was rejected, with the error kind of its phase (R121, R208). -/
theorem rejectsWith_of_acceptByte {s : State} {b : Byte} (hphase : s.phase ≠ .error)
    (herror : (acceptByte s b).phase = .error) : ∃ e, s.rejectsWith e ∧ acceptByte s b = s.raiseOnByte e := by
  cases hp : s.phase with
  | idle =>
    rw [acceptByte_of_idle hp] at herror ⊢
    split_ifs at herror ⊢
    · simp at herror
    · exact ⟨_, .inl ⟨hp, rfl⟩, rfl⟩
  | marker =>
    rw [acceptByte_of_marker hp] at herror ⊢
    split_ifs at herror ⊢
    · simp at herror
    · simp at herror
    · exact ⟨_, .inr (.inl ⟨hp, rfl⟩), rfl⟩
  | ts | level | payload | ident =>
    have hfield : isFieldPhase s.phase = true := by rw [hp]; rfl
    rw [acceptByte_of_fieldPhase hfield] at herror ⊢
    cases hdecode : escDecode s.esc b with
    | emit e v =>
      rw [hdecode] at herror
      exact absurd herror (State.deliver_phase_ne_error (s := ({ s with esc := e }).takeByte) hfield v)
    | hold e =>
      rw [hdecode] at herror
      exact absurd herror hphase
    | bad => exact ⟨_, .inr (.inr ⟨hfield, esc_of_escDecode_bad hdecode, rfl⟩), rfl⟩
  | done => simp [acceptByte, hp] at herror
  | error => exact absurd hp hphase

theorem step_of_startsStep {s : State} (h : s.startsStep = true) : step s = .next (stepRule s.advance s.sample) :=
  stepIsRuleR121 s h

/-- All that a step that enters `ERROR` can be (R206). -/
inductive ErrorEntry (s t : State) : Prop where
  /-- A byte is taken and rejected (R125, R128, R104). -/
  | rejected (e : ErrCode) (accepts : s.accepts = true) (cause : s.rejectsWith e) (after : t = s.advance.raiseOnByte e)
  /-- The stream ends inside a frame (R132). -/
  | truncated (ends : s.ends = true) (inside : s.phase ≠ .idle) (after : t = s.advance.raise .truncatedFrame)

theorem step_errorEntry {s t : State} (hphase : s.phase ≠ .error) (h : step s = .next t) (herror : t.phase = .error) :
    ErrorEntry s t := by
  obtain ⟨hstarts, hexec⟩ := (step_eq_next_iff_eventRow s t).1 h
  obtain ⟨he, -⟩ | ⟨-, haccepts⟩ | ⟨he, hends⟩ | ⟨he, -⟩ | ⟨he, -⟩ := s.event?_cases
  · rw [he] at hexec
    cases hexec
    simp at herror
  · rw [step_of_startsStep hstarts, stepRule_of_accepts haccepts] at h
    obtain rfl := Host.Outcome.next.inj h
    obtain ⟨e, hcause, hafter⟩ := rejectsWith_of_acceptByte (s := s.advance) hphase herror
    exact .rejected e haccepts hcause hafter
  · obtain ⟨-, hready, -⟩ := s.ends_eq_true_iff.1 hends
    rw [he] at hexec
    obtain rfl := Host.Outcome.next.inj ((exec_endRow (s := s.advance) hready).symm.trans hexec)
    by_cases hidle : s.phase = .idle
    · simp [hidle] at herror
    · exact .truncated hends hidle (if_neg hidle)
  · rw [he] at hexec
    obtain ⟨-, rfl⟩ := (runRow_eq_next_iff _ _ _).1 hexec
    exact absurd herror hphase
  · rw [he] at hexec
    cases hexec
    exact absurd herror hphase

/-- Settles O41: a rejected byte or a truncation, and each is an error entry that writes nothing but the record, `phase` and `esc`,
and `off_r` where a byte is taken. Both events need `in_ready`, so no frame waits. -/
theorem errorEntryRecordsTheCause : Obligations.ErrorEntryRecordsTheCause := by
  unfold Obligations.ErrorEntryRecordsTheCause
  intro s t hphase hstep herror
  cases step_errorEntry hphase hstep herror with
  | rejected e haccepts hcause hafter =>
    obtain ⟨-, hready, -⟩ := s.accepts_eq_true_iff.1 haccepts
    obtain ⟨-, hfree⟩ := s.inReady_eq_true_iff.1 hready
    subst hafter
    exact ⟨rfl, rfl, rfl, hfree, hfree, rfl, rfl, rfl, rfl, rfl, .inl ⟨haccepts, rfl, hcause⟩⟩
  | truncated hends hinside hafter =>
    obtain ⟨-, hready, -⟩ := s.ends_eq_true_iff.1 hends
    obtain ⟨-, hfree⟩ := s.inReady_eq_true_iff.1 hready
    subst hafter
    exact ⟨rfl, rfl, rfl, hfree, hfree, rfl, rfl, rfl, rfl, rfl, .inr ⟨hends, rfl, hinside, rfl⟩⟩

/-! ### The record stays -/

/-- The state after a step in which the block only offers the frame that waits, if there is one. -/
def State.afterOffer (s : State) : State :=
  { s with outValidR := s.outValidR && !s.sample.outReady, pins := s.pins.tail }

/-- A frame that no longer waits needs no kind (U12). -/
theorem State.holdsUnused_afterOffer {s : State} (hunused : s.holdsUnused = false) :
    s.afterOffer.holdsUnused = false := by
  simp only [State.holdsUnused, State.afterOffer, Bool.or_eq_false_iff, Bool.and_eq_false_imp] at hunused ⊢
  obtain ⟨hcnt, hkind⟩ := hunused
  exact ⟨hcnt, fun hwaits => hkind (Bool.and_eq_true_iff.1 hwaits).1⟩

/-- In a terminal phase a step without reset can only hand over a frame that waits (R134). -/
theorem step_of_terminal {s : State} (hterminal : s.phase.terminal = true) (hunused : s.holdsUnused = false)
    (hr : s.sample.rst = false) : step s = .next s.afterOffer := by
  rw [step_of_startsStep (by simp [State.startsStep, hunused])]
  cases hwaits : s.outValidR with
  | false => simp [stepRule, ← terminal_eq_true_iff, hterminal, hr, hwaits, State.advance, State.afterOffer]
  | true => cases hout : s.sample.outReady <;> simp [stepRule, hr, hwaits, hout, State.advance, State.afterOffer]

/-- A run without reset from a terminal phase changes no register but `out_valid_r`. -/
theorem run_of_terminal (n : Nat) {s : State} (hterminal : s.phase.terminal = true) (hunused : s.holdsUnused = false)
    (hr : ∀ p ∈ s.pins.take n, p.rst = false) :
    ∃ waits ps, core.run n s = .next { s with outValidR := waits, pins := ps } := by
  induction n generalizing s with
  | zero => exact ⟨_, _, rfl⟩
  | succ n ih =>
    obtain ⟨hnow, hlater⟩ := State.noReset_succ hr
    have hstep := step_of_terminal hterminal hunused hnow
    obtain ⟨waits, ps, hrun⟩ := ih (s := s.afterOffer) hterminal (State.holdsUnused_afterOffer hunused) hlater
    exact ⟨waits, ps, (run_succ_eq_next_iff n s _).2 ⟨_, hstep, hrun⟩⟩

/-- Settles O42: `ERROR` is terminal, so only `out_valid_r` can change. -/
theorem errorIsSticky : Obligations.ErrorIsSticky := by
  unfold Obligations.ErrorIsSticky
  intro n s herror hunused hr
  obtain ⟨waits, ps, hrun⟩ := run_of_terminal n (by simp [herror, Phase.terminal]) hunused hr
  refine ⟨_, hrun, herror, ?_, ?_, rfl, rfl, rfl, rfl⟩
  · simp [State.outputs, State.errValid, herror]
  · simp [State.outputs, State.inReady, isParsingPhase, herror]

end Sys2Proof.Machine

/-! ## Reset, and the effect of every input

A reset step answers `ResetState` of the build whatever it finds in the registers (R230), so a run of reset steps does so too
(R233); and a state without an unused encoding starts a step under any input (R235). -/

namespace Sys2Proof.Machine

/-! ### The reset step (R230) -/

/-- Settles O18: the row's effect is `State.loadReset`, whose registers are the reset values. -/
theorem resetLoadsEveryRegister : Obligations.ResetLoadsEveryRegister := by
  unfold Obligations.ResetLoadsEveryRegister
  intro s
  have hpay : ∀ j : Fin 14, s.loadReset.payR[j.val] = 0 := by simp
  exact ⟨s.loadReset, rfl, rfl, rfl, rfl, rfl, rfl, rfl, rfl, hpay, rfl, rfl, rfl, rfl, rfl, rfl⟩

/-- A reset step starts in any state, an unused encoding included (R231), and is the first arm of R121. -/
theorem step_of_reset {s : State} (hr : s.sample.rst = true) : step s = .next s.advance.loadReset := by
  rw [step_of_startsStep (by simp [State.startsStep, hr]), stepRule, if_pos hr]

theorem State.loadReset_sameRegisters (s : State) : s.loadReset.sameRegisters (State.resetWith s.config) := rfl

/-- Settles O19: each handshake needs `rst = 0` (R40 to R42), and the ports show the reset values. -/
theorem resetStepWinsOverEverything : Obligations.ResetStepWinsOverEverything := by
  unfold Obligations.ResetStepWinsOverEverything
  intro s hr
  have haccepts : s.accepts = false := by simp [State.accepts, hr]
  have hends : s.ends = false := by simp [State.ends, hr]
  have htakes : s.takes = false := by simp [State.takes, hr]
  exact ⟨haccepts, hends, htakes, _, step_of_reset hr, s.advance.loadReset_sameRegisters, rfl, rfl, rfl, rfl, rfl⟩

/-! ### Runs of reset steps (R233) -/

/-- The samples of a run of reset steps: one in the coming step, the others after it. -/
theorem State.allReset_succ {s : State} {n : Nat} (hlen : n + 1 ≤ s.pins.length)
    (hr : ∀ p ∈ s.pins.take (n + 1), p.rst = true) :
    s.sample.rst = true ∧ n ≤ s.pins.tail.length ∧ ∀ p ∈ s.pins.tail.take n, p.rst = true := by
  cases hpins : s.pins with
  | nil => simp [hpins] at hlen
  | cons p ps =>
    obtain ⟨hnow, hlater⟩ : p.rst = true ∧ ∀ q ∈ ps.take n, q.rst = true := by simpa [hpins] using hr
    exact ⟨by simpa [State.sample, hpins] using hnow, by simpa [hpins] using hlen, hlater⟩

/-- Reset steps, one or more, answer `ResetState` of the build and use up their samples. -/
theorem run_of_reset (n : Nat) {s : State} (hlen : n + 1 ≤ s.pins.length)
    (hr : ∀ p ∈ s.pins.take (n + 1), p.rst = true) :
    core.run (n + 1) s = .next { State.resetWith s.config with pins := s.pins.drop (n + 1) } := by
  induction n generalizing s with
  | zero =>
    obtain ⟨hnow, -⟩ := State.allReset_succ hlen hr
    refine (run_succ_eq_next_iff 0 s _).2 ⟨_, step_of_reset hnow, ?_⟩
    rw [List.drop_one]
    rfl
  | succ n ih =>
    obtain ⟨hnow, hlen', hlater⟩ := State.allReset_succ hlen hr
    refine (run_succ_eq_next_iff (n + 1) s _).2 ⟨_, step_of_reset hnow, ?_⟩
    rw [ih (s := s.advance.loadReset) hlen' hlater]
    simp

/-- Settles O20: one reset step and many both leave `ResetState` of the build, and differ in the samples used up alone. -/
theorem manyResetStepsAreOne : Obligations.ManyResetStepsAreOne := by
  unfold Obligations.ManyResetStepsAreOne
  intro n s hlen hr
  obtain ⟨hnow, -⟩ := State.allReset_succ hlen hr
  exact ⟨_, _, step_of_reset hnow, run_of_reset n hlen hr, rfl⟩

/-! ### Every input (R235) -/

theorem State.startsStep_of_holdsUnused {s : State} (hunused : s.holdsUnused = false) : s.startsStep = true := by
  simp [State.startsStep, hunused]

/-- Settles O23: no placed input makes an encoding unused, so the step starts, and R121 gives its effect. -/
theorem everyInputHasAnEffect : Obligations.EveryInputHasAnEffect := by
  unfold Obligations.EveryInputHasAnEffect
  intro s hunused p
  have hplaced : State.holdsUnused { s with pins := p :: s.pins } = false := hunused
  exact ⟨_, step_of_startsStep (State.startsStep_of_holdsUnused hplaced)⟩

end Sys2Proof.Machine

/-! ## Unused encodings stop the step

U12 refuses a register state that holds an unused encoding. Only a reset step starts in one (R231), so without `rst` the step
answers the refusal before the decoder reads anything. -/

namespace Sys2Proof.Machine

/-- The unused encodings of U12 that the registers have room for. -/
theorem State.holdsUnused_eq_true_iff (s : State) :
    s.holdsUnused = true ↔ 14 ≤ s.cnt.toNat ∨ (s.outValidR = true ∧ s.kindR = .unset) := by
  simp [State.holdsUnused]

theorem State.startsStep_eq_false_iff (s : State) :
    s.startsStep = false ↔ s.sample.rst = false ∧ s.holdsUnused = true := by
  simp [State.startsStep]

theorem step_of_not_startsStep {s : State} (h : s.startsStep = false) : step s = .refused .unusedEncoding := by
  simp [step, h]

/-- Settles O22: the two encodings are the ones `step` looks for, and no reset excuses them. -/
theorem unusedEncodingStopsTheStep : Obligations.UnusedEncodingStopsTheStep := by
  unfold Obligations.UnusedEncodingStopsTheStep
  intro s hr hvalue
  have hunused : s.holdsUnused = true := s.holdsUnused_eq_true_iff.2 hvalue
  have hstops : s.startsStep = false := s.startsStep_eq_false_iff.2 ⟨hr, hunused⟩
  exact step_of_not_startsStep hstops

end Sys2Proof.Machine
